-- ==== Sys2Proof/Word.lean ====
section
/-! DEFINITION. The words of the machine: bytes, sixteen-bit words and addresses, and the sparse byte memory's type. -/

namespace Sys2Proof

/-- A byte: every register but PC, and every memory cell (00_scope.md R9, R11). -/
abbrev Byte := BitVec 8

/-- A sixteen-bit word: PC and CPU addresses (00_scope.md R9, 10_state.md R22). -/
abbrev Word := BitVec 16

/-- A sparse byte memory: the cells that differ from the fill byte, addresses strictly rising (log 4). Its operations and
its canonical form `Memory.wf` are in Machine/Memory.lean. -/
abbrev Memory := List Host.Cell

end Sys2Proof
end

