-- ==== Sys2Proof/Machine/Bits.lean ====
section
/-! DEFINITION. Byte order, page and sign-extension helpers, and bits as numbers (00_scope.md R11, R13; 20_memory.md R110). -/

namespace Sys2Proof.Machine

/-- A sixteen-bit value from its two bytes, the low byte first in memory (20_memory.md R110). -/
def wordOf (lo hi : Byte) : Word := hi.setWidth 16 <<< 8 ||| lo.setWidth 16

/-- Bits 7:0 of a word. -/
def loByte (w : Word) : Byte := w.setWidth 8

/-- Bits 15:8 of a word. -/
def hiByte (w : Word) : Byte := (w >>> 8).setWidth 8

/-- `page(a) = a & $FF00` (00_scope.md R13). -/
def page (a : Word) : Word := a &&& 0xFF00

/-- `sext_8` (00_scope.md R13): the two's-complement reading of a byte, −128 to 127. -/
def sext8 (b : Byte) : Int := b.toInt

/-- The byte of a signed displacement: `sext_8` inverted on −128 to 127, taken modulo 256 elsewhere. -/
def byteOfInt (off : Int) : Byte := BitVec.ofInt 8 off

/-- A bit as a number, 0 or 1. -/
def bit01 (b : Bool) : Nat := if b then 1 else 0

end Sys2Proof.Machine
end

