-- ==== Sys2Proof/Syntax.lean ====
section
/-! DEFINITION. The syntax of the instruction set: one constructor of `Instr` per row of spec/opcode_table.json, named by its
mnemonic and addressing mode, in the table's order. An operand byte or word is held as the instruction stores it; a branch
holds its signed displacement (30_encoding.md R155), whose range `Instr.wellFormed` checks. -/

namespace Sys2Proof

/-- The 151 official instructions (30_encoding.md R167). -/
inductive Instr where
  /-- $00 `BRK` (R303, R144) -/
  | brk
  /-- $01 `ORA ($nn,X)` (R234, R153) -/
  | oraIndx (zp : Byte)
  /-- $05 `ORA $nn` (R234, R146) -/
  | oraZp (zp : Byte)
  /-- $06 `ASL $nn` (R261, R146) -/
  | aslZp (zp : Byte)
  /-- $08 `PHP` (R333, R144) -/
  | php
  /-- $09 `ORA #$nn` (R234, R145) -/
  | oraImm (v : Byte)
  /-- $0A `ASL A` (R261, R144) -/
  | aslAcc
  /-- $0D `ORA $nnnn` (R234, R149) -/
  | oraAbs (addr : Word)
  /-- $0E `ASL $nnnn` (R261, R149) -/
  | aslAbs (addr : Word)
  /-- $10 `BPL label` (R300, R155) -/
  | bpl (off : Int)
  /-- $11 `ORA ($nn),Y` (R234, R154) -/
  | oraIndy (zp : Byte)
  /-- $15 `ORA $nn,X` (R234, R147) -/
  | oraZpx (zp : Byte)
  /-- $16 `ASL $nn,X` (R261, R147) -/
  | aslZpx (zp : Byte)
  /-- $18 `CLC` (R335, R144) -/
  | clc
  /-- $19 `ORA $nnnn,Y` (R234, R151) -/
  | oraAbsy (addr : Word)
  /-- $1D `ORA $nnnn,X` (R234, R150) -/
  | oraAbsx (addr : Word)
  /-- $1E `ASL $nnnn,X` (R261, R150) -/
  | aslAbsx (addr : Word)
  /-- $20 `JSR $nnnn` (R292, R149) -/
  | jsr (addr : Word)
  /-- $21 `AND ($nn,X)` (R233, R153) -/
  | andIndx (zp : Byte)
  /-- $24 `BIT $nn` (R239, R146) -/
  | bitZp (zp : Byte)
  /-- $25 `AND $nn` (R233, R146) -/
  | andZp (zp : Byte)
  /-- $26 `ROL $nn` (R263, R146) -/
  | rolZp (zp : Byte)
  /-- $28 `PLP` (R334, R144) -/
  | plp
  /-- $29 `AND #$nn` (R233, R145) -/
  | andImm (v : Byte)
  /-- $2A `ROL A` (R263, R144) -/
  | rolAcc
  /-- $2C `BIT $nnnn` (R239, R149) -/
  | bitAbs (addr : Word)
  /-- $2D `AND $nnnn` (R233, R149) -/
  | andAbs (addr : Word)
  /-- $2E `ROL $nnnn` (R263, R149) -/
  | rolAbs (addr : Word)
  /-- $30 `BMI label` (R299, R155) -/
  | bmi (off : Int)
  /-- $31 `AND ($nn),Y` (R233, R154) -/
  | andIndy (zp : Byte)
  /-- $35 `AND $nn,X` (R233, R147) -/
  | andZpx (zp : Byte)
  /-- $36 `ROL $nn,X` (R263, R147) -/
  | rolZpx (zp : Byte)
  /-- $38 `SEC` (R336, R144) -/
  | sec
  /-- $39 `AND $nnnn,Y` (R233, R151) -/
  | andAbsy (addr : Word)
  /-- $3D `AND $nnnn,X` (R233, R150) -/
  | andAbsx (addr : Word)
  /-- $3E `ROL $nnnn,X` (R263, R150) -/
  | rolAbsx (addr : Word)
  /-- $40 `RTI` (R304, R144) -/
  | rti
  /-- $41 `EOR ($nn,X)` (R235, R153) -/
  | eorIndx (zp : Byte)
  /-- $45 `EOR $nn` (R235, R146) -/
  | eorZp (zp : Byte)
  /-- $46 `LSR $nn` (R262, R146) -/
  | lsrZp (zp : Byte)
  /-- $48 `PHA` (R331, R144) -/
  | pha
  /-- $49 `EOR #$nn` (R235, R145) -/
  | eorImm (v : Byte)
  /-- $4A `LSR A` (R262, R144) -/
  | lsrAcc
  /-- $4C `JMP $nnnn` (R291, R149) -/
  | jmpAbs (addr : Word)
  /-- $4D `EOR $nnnn` (R235, R149) -/
  | eorAbs (addr : Word)
  /-- $4E `LSR $nnnn` (R262, R149) -/
  | lsrAbs (addr : Word)
  /-- $50 `BVC label` (R301, R155) -/
  | bvc (off : Int)
  /-- $51 `EOR ($nn),Y` (R235, R154) -/
  | eorIndy (zp : Byte)
  /-- $55 `EOR $nn,X` (R235, R147) -/
  | eorZpx (zp : Byte)
  /-- $56 `LSR $nn,X` (R262, R147) -/
  | lsrZpx (zp : Byte)
  /-- $58 `CLI` (R337, R144) -/
  | cli
  /-- $59 `EOR $nnnn,Y` (R235, R151) -/
  | eorAbsy (addr : Word)
  /-- $5D `EOR $nnnn,X` (R235, R150) -/
  | eorAbsx (addr : Word)
  /-- $5E `LSR $nnnn,X` (R262, R150) -/
  | lsrAbsx (addr : Word)
  /-- $60 `RTS` (R293, R144) -/
  | rts
  /-- $61 `ADC ($nn,X)` (R231, R153) -/
  | adcIndx (zp : Byte)
  /-- $65 `ADC $nn` (R231, R146) -/
  | adcZp (zp : Byte)
  /-- $66 `ROR $nn` (R264, R146) -/
  | rorZp (zp : Byte)
  /-- $68 `PLA` (R332, R144) -/
  | pla
  /-- $69 `ADC #$nn` (R231, R145) -/
  | adcImm (v : Byte)
  /-- $6A `ROR A` (R264, R144) -/
  | rorAcc
  /-- $6C `JMP ($nnnn)` (R291, R152) -/
  | jmpInd (ptr : Word)
  /-- $6D `ADC $nnnn` (R231, R149) -/
  | adcAbs (addr : Word)
  /-- $6E `ROR $nnnn` (R264, R149) -/
  | rorAbs (addr : Word)
  /-- $70 `BVS label` (R302, R155) -/
  | bvs (off : Int)
  /-- $71 `ADC ($nn),Y` (R231, R154) -/
  | adcIndy (zp : Byte)
  /-- $75 `ADC $nn,X` (R231, R147) -/
  | adcZpx (zp : Byte)
  /-- $76 `ROR $nn,X` (R264, R147) -/
  | rorZpx (zp : Byte)
  /-- $78 `SEI` (R338, R144) -/
  | sei
  /-- $79 `ADC $nnnn,Y` (R231, R151) -/
  | adcAbsy (addr : Word)
  /-- $7D `ADC $nnnn,X` (R231, R150) -/
  | adcAbsx (addr : Word)
  /-- $7E `ROR $nnnn,X` (R264, R150) -/
  | rorAbsx (addr : Word)
  /-- $81 `STA ($nn,X)` (R204, R153) -/
  | staIndx (zp : Byte)
  /-- $84 `STY $nn` (R206, R146) -/
  | styZp (zp : Byte)
  /-- $85 `STA $nn` (R204, R146) -/
  | staZp (zp : Byte)
  /-- $86 `STX $nn` (R205, R146) -/
  | stxZp (zp : Byte)
  /-- $88 `DEY` (R270, R144) -/
  | dey
  /-- $8A `TXA` (R209, R144) -/
  | txa
  /-- $8C `STY $nnnn` (R206, R149) -/
  | styAbs (addr : Word)
  /-- $8D `STA $nnnn` (R204, R149) -/
  | staAbs (addr : Word)
  /-- $8E `STX $nnnn` (R205, R149) -/
  | stxAbs (addr : Word)
  /-- $90 `BCC label` (R295, R155) -/
  | bcc (off : Int)
  /-- $91 `STA ($nn),Y` (R204, R154) -/
  | staIndy (zp : Byte)
  /-- $94 `STY $nn,X` (R206, R147) -/
  | styZpx (zp : Byte)
  /-- $95 `STA $nn,X` (R204, R147) -/
  | staZpx (zp : Byte)
  /-- $96 `STX $nn,Y` (R205, R148) -/
  | stxZpy (zp : Byte)
  /-- $98 `TYA` (R210, R144) -/
  | tya
  /-- $99 `STA $nnnn,Y` (R204, R151) -/
  | staAbsy (addr : Word)
  /-- $9A `TXS` (R212, R144) -/
  | txs
  /-- $9D `STA $nnnn,X` (R204, R150) -/
  | staAbsx (addr : Word)
  /-- $A0 `LDY #$nn` (R203, R145) -/
  | ldyImm (v : Byte)
  /-- $A1 `LDA ($nn,X)` (R201, R153) -/
  | ldaIndx (zp : Byte)
  /-- $A2 `LDX #$nn` (R202, R145) -/
  | ldxImm (v : Byte)
  /-- $A4 `LDY $nn` (R203, R146) -/
  | ldyZp (zp : Byte)
  /-- $A5 `LDA $nn` (R201, R146) -/
  | ldaZp (zp : Byte)
  /-- $A6 `LDX $nn` (R202, R146) -/
  | ldxZp (zp : Byte)
  /-- $A8 `TAY` (R208, R144) -/
  | tay
  /-- $A9 `LDA #$nn` (R201, R145) -/
  | ldaImm (v : Byte)
  /-- $AA `TAX` (R207, R144) -/
  | tax
  /-- $AC `LDY $nnnn` (R203, R149) -/
  | ldyAbs (addr : Word)
  /-- $AD `LDA $nnnn` (R201, R149) -/
  | ldaAbs (addr : Word)
  /-- $AE `LDX $nnnn` (R202, R149) -/
  | ldxAbs (addr : Word)
  /-- $B0 `BCS label` (R296, R155) -/
  | bcs (off : Int)
  /-- $B1 `LDA ($nn),Y` (R201, R154) -/
  | ldaIndy (zp : Byte)
  /-- $B4 `LDY $nn,X` (R203, R147) -/
  | ldyZpx (zp : Byte)
  /-- $B5 `LDA $nn,X` (R201, R147) -/
  | ldaZpx (zp : Byte)
  /-- $B6 `LDX $nn,Y` (R202, R148) -/
  | ldxZpy (zp : Byte)
  /-- $B8 `CLV` (R339, R144) -/
  | clv
  /-- $B9 `LDA $nnnn,Y` (R201, R151) -/
  | ldaAbsy (addr : Word)
  /-- $BA `TSX` (R211, R144) -/
  | tsx
  /-- $BC `LDY $nnnn,X` (R203, R150) -/
  | ldyAbsx (addr : Word)
  /-- $BD `LDA $nnnn,X` (R201, R150) -/
  | ldaAbsx (addr : Word)
  /-- $BE `LDX $nnnn,Y` (R202, R151) -/
  | ldxAbsy (addr : Word)
  /-- $C0 `CPY #$nn` (R238, R145) -/
  | cpyImm (v : Byte)
  /-- $C1 `CMP ($nn,X)` (R236, R153) -/
  | cmpIndx (zp : Byte)
  /-- $C4 `CPY $nn` (R238, R146) -/
  | cpyZp (zp : Byte)
  /-- $C5 `CMP $nn` (R236, R146) -/
  | cmpZp (zp : Byte)
  /-- $C6 `DEC $nn` (R266, R146) -/
  | decZp (zp : Byte)
  /-- $C8 `INY` (R268, R144) -/
  | iny
  /-- $C9 `CMP #$nn` (R236, R145) -/
  | cmpImm (v : Byte)
  /-- $CA `DEX` (R269, R144) -/
  | dex
  /-- $CC `CPY $nnnn` (R238, R149) -/
  | cpyAbs (addr : Word)
  /-- $CD `CMP $nnnn` (R236, R149) -/
  | cmpAbs (addr : Word)
  /-- $CE `DEC $nnnn` (R266, R149) -/
  | decAbs (addr : Word)
  /-- $D0 `BNE label` (R298, R155) -/
  | bne (off : Int)
  /-- $D1 `CMP ($nn),Y` (R236, R154) -/
  | cmpIndy (zp : Byte)
  /-- $D5 `CMP $nn,X` (R236, R147) -/
  | cmpZpx (zp : Byte)
  /-- $D6 `DEC $nn,X` (R266, R147) -/
  | decZpx (zp : Byte)
  /-- $D8 `CLD` (R340, R144) -/
  | cld
  /-- $D9 `CMP $nnnn,Y` (R236, R151) -/
  | cmpAbsy (addr : Word)
  /-- $DD `CMP $nnnn,X` (R236, R150) -/
  | cmpAbsx (addr : Word)
  /-- $DE `DEC $nnnn,X` (R266, R150) -/
  | decAbsx (addr : Word)
  /-- $E0 `CPX #$nn` (R237, R145) -/
  | cpxImm (v : Byte)
  /-- $E1 `SBC ($nn,X)` (R232, R153) -/
  | sbcIndx (zp : Byte)
  /-- $E4 `CPX $nn` (R237, R146) -/
  | cpxZp (zp : Byte)
  /-- $E5 `SBC $nn` (R232, R146) -/
  | sbcZp (zp : Byte)
  /-- $E6 `INC $nn` (R265, R146) -/
  | incZp (zp : Byte)
  /-- $E8 `INX` (R267, R144) -/
  | inx
  /-- $E9 `SBC #$nn` (R232, R145) -/
  | sbcImm (v : Byte)
  /-- $EA `NOP` (R342, R144) -/
  | nop
  /-- $EC `CPX $nnnn` (R237, R149) -/
  | cpxAbs (addr : Word)
  /-- $ED `SBC $nnnn` (R232, R149) -/
  | sbcAbs (addr : Word)
  /-- $EE `INC $nnnn` (R265, R149) -/
  | incAbs (addr : Word)
  /-- $F0 `BEQ label` (R297, R155) -/
  | beq (off : Int)
  /-- $F1 `SBC ($nn),Y` (R232, R154) -/
  | sbcIndy (zp : Byte)
  /-- $F5 `SBC $nn,X` (R232, R147) -/
  | sbcZpx (zp : Byte)
  /-- $F6 `INC $nn,X` (R265, R147) -/
  | incZpx (zp : Byte)
  /-- $F8 `SED` (R341, R144) -/
  | sed
  /-- $F9 `SBC $nnnn,Y` (R232, R151) -/
  | sbcAbsy (addr : Word)
  /-- $FD `SBC $nnnn,X` (R232, R150) -/
  | sbcAbsx (addr : Word)
  /-- $FE `INC $nnnn,X` (R265, R150) -/
  | incAbsx (addr : Word)
  deriving DecidableEq, Repr

end Sys2Proof
end

