-- ==== Sys2Proof/Decode.lean ====
section
/-! DEFINITION. The decoder, total on any bytes, and the encoder. The decoder's sixteen row functions are the sixteen rows of the
opcode matrix of 30_encoding.md R167, row = high nibble, column = low nibble; a column not listed is an illegal opcode (R160).
The encoder is written from the "mnemonic by mode" table of R168 and the formats of R140. -/

namespace Sys2Proof

open Sys2Proof.Machine (wordOf loByte hiByte sext8 byteOfInt)

/-- A cell of the opcode matrix: an instruction without operand bytes, or one with a byte, a displacement or a word to come
(30_encoding.md R140, R141, R155). -/
inductive OpForm where
  | noOperand (i : Instr)
  | withByte (f : Byte → Instr)
  | withOffset (f : Int → Instr)
  | withWord (f : Word → Instr)

/-- The instruction's length in bytes (30_encoding.md R141). -/
def OpForm.length : OpForm → Nat
  | .noOperand _ => 1
  | .withByte _ => 2
  | .withOffset _ => 2
  | .withWord _ => 3

/-- Row 0x of the opcode matrix (30_encoding.md R167). -/
def opRow0 : Nat → Option OpForm
  | 0x0 => some (.noOperand .brk)
  | 0x1 => some (.withByte .oraIndx)
  | 0x5 => some (.withByte .oraZp)
  | 0x6 => some (.withByte .aslZp)
  | 0x8 => some (.noOperand .php)
  | 0x9 => some (.withByte .oraImm)
  | 0xA => some (.noOperand .aslAcc)
  | 0xD => some (.withWord .oraAbs)
  | 0xE => some (.withWord .aslAbs)
  | _ => none

/-- Row 1x of the opcode matrix (30_encoding.md R167). -/
def opRow1 : Nat → Option OpForm
  | 0x0 => some (.withOffset .bpl)
  | 0x1 => some (.withByte .oraIndy)
  | 0x5 => some (.withByte .oraZpx)
  | 0x6 => some (.withByte .aslZpx)
  | 0x8 => some (.noOperand .clc)
  | 0x9 => some (.withWord .oraAbsy)
  | 0xD => some (.withWord .oraAbsx)
  | 0xE => some (.withWord .aslAbsx)
  | _ => none

/-- Row 2x of the opcode matrix (30_encoding.md R167). -/
def opRow2 : Nat → Option OpForm
  | 0x0 => some (.withWord .jsr)
  | 0x1 => some (.withByte .andIndx)
  | 0x4 => some (.withByte .bitZp)
  | 0x5 => some (.withByte .andZp)
  | 0x6 => some (.withByte .rolZp)
  | 0x8 => some (.noOperand .plp)
  | 0x9 => some (.withByte .andImm)
  | 0xA => some (.noOperand .rolAcc)
  | 0xC => some (.withWord .bitAbs)
  | 0xD => some (.withWord .andAbs)
  | 0xE => some (.withWord .rolAbs)
  | _ => none

/-- Row 3x of the opcode matrix (30_encoding.md R167). -/
def opRow3 : Nat → Option OpForm
  | 0x0 => some (.withOffset .bmi)
  | 0x1 => some (.withByte .andIndy)
  | 0x5 => some (.withByte .andZpx)
  | 0x6 => some (.withByte .rolZpx)
  | 0x8 => some (.noOperand .sec)
  | 0x9 => some (.withWord .andAbsy)
  | 0xD => some (.withWord .andAbsx)
  | 0xE => some (.withWord .rolAbsx)
  | _ => none

/-- Row 4x of the opcode matrix (30_encoding.md R167). -/
def opRow4 : Nat → Option OpForm
  | 0x0 => some (.noOperand .rti)
  | 0x1 => some (.withByte .eorIndx)
  | 0x5 => some (.withByte .eorZp)
  | 0x6 => some (.withByte .lsrZp)
  | 0x8 => some (.noOperand .pha)
  | 0x9 => some (.withByte .eorImm)
  | 0xA => some (.noOperand .lsrAcc)
  | 0xC => some (.withWord .jmpAbs)
  | 0xD => some (.withWord .eorAbs)
  | 0xE => some (.withWord .lsrAbs)
  | _ => none

/-- Row 5x of the opcode matrix (30_encoding.md R167). -/
def opRow5 : Nat → Option OpForm
  | 0x0 => some (.withOffset .bvc)
  | 0x1 => some (.withByte .eorIndy)
  | 0x5 => some (.withByte .eorZpx)
  | 0x6 => some (.withByte .lsrZpx)
  | 0x8 => some (.noOperand .cli)
  | 0x9 => some (.withWord .eorAbsy)
  | 0xD => some (.withWord .eorAbsx)
  | 0xE => some (.withWord .lsrAbsx)
  | _ => none

/-- Row 6x of the opcode matrix (30_encoding.md R167). -/
def opRow6 : Nat → Option OpForm
  | 0x0 => some (.noOperand .rts)
  | 0x1 => some (.withByte .adcIndx)
  | 0x5 => some (.withByte .adcZp)
  | 0x6 => some (.withByte .rorZp)
  | 0x8 => some (.noOperand .pla)
  | 0x9 => some (.withByte .adcImm)
  | 0xA => some (.noOperand .rorAcc)
  | 0xC => some (.withWord .jmpInd)
  | 0xD => some (.withWord .adcAbs)
  | 0xE => some (.withWord .rorAbs)
  | _ => none

/-- Row 7x of the opcode matrix (30_encoding.md R167). -/
def opRow7 : Nat → Option OpForm
  | 0x0 => some (.withOffset .bvs)
  | 0x1 => some (.withByte .adcIndy)
  | 0x5 => some (.withByte .adcZpx)
  | 0x6 => some (.withByte .rorZpx)
  | 0x8 => some (.noOperand .sei)
  | 0x9 => some (.withWord .adcAbsy)
  | 0xD => some (.withWord .adcAbsx)
  | 0xE => some (.withWord .rorAbsx)
  | _ => none

/-- Row 8x of the opcode matrix (30_encoding.md R167). -/
def opRow8 : Nat → Option OpForm
  | 0x1 => some (.withByte .staIndx)
  | 0x4 => some (.withByte .styZp)
  | 0x5 => some (.withByte .staZp)
  | 0x6 => some (.withByte .stxZp)
  | 0x8 => some (.noOperand .dey)
  | 0xA => some (.noOperand .txa)
  | 0xC => some (.withWord .styAbs)
  | 0xD => some (.withWord .staAbs)
  | 0xE => some (.withWord .stxAbs)
  | _ => none

/-- Row 9x of the opcode matrix (30_encoding.md R167). -/
def opRow9 : Nat → Option OpForm
  | 0x0 => some (.withOffset .bcc)
  | 0x1 => some (.withByte .staIndy)
  | 0x4 => some (.withByte .styZpx)
  | 0x5 => some (.withByte .staZpx)
  | 0x6 => some (.withByte .stxZpy)
  | 0x8 => some (.noOperand .tya)
  | 0x9 => some (.withWord .staAbsy)
  | 0xA => some (.noOperand .txs)
  | 0xD => some (.withWord .staAbsx)
  | _ => none

/-- Row Ax of the opcode matrix (30_encoding.md R167). -/
def opRowA : Nat → Option OpForm
  | 0x0 => some (.withByte .ldyImm)
  | 0x1 => some (.withByte .ldaIndx)
  | 0x2 => some (.withByte .ldxImm)
  | 0x4 => some (.withByte .ldyZp)
  | 0x5 => some (.withByte .ldaZp)
  | 0x6 => some (.withByte .ldxZp)
  | 0x8 => some (.noOperand .tay)
  | 0x9 => some (.withByte .ldaImm)
  | 0xA => some (.noOperand .tax)
  | 0xC => some (.withWord .ldyAbs)
  | 0xD => some (.withWord .ldaAbs)
  | 0xE => some (.withWord .ldxAbs)
  | _ => none

/-- Row Bx of the opcode matrix (30_encoding.md R167). -/
def opRowB : Nat → Option OpForm
  | 0x0 => some (.withOffset .bcs)
  | 0x1 => some (.withByte .ldaIndy)
  | 0x4 => some (.withByte .ldyZpx)
  | 0x5 => some (.withByte .ldaZpx)
  | 0x6 => some (.withByte .ldxZpy)
  | 0x8 => some (.noOperand .clv)
  | 0x9 => some (.withWord .ldaAbsy)
  | 0xA => some (.noOperand .tsx)
  | 0xC => some (.withWord .ldyAbsx)
  | 0xD => some (.withWord .ldaAbsx)
  | 0xE => some (.withWord .ldxAbsy)
  | _ => none

/-- Row Cx of the opcode matrix (30_encoding.md R167). -/
def opRowC : Nat → Option OpForm
  | 0x0 => some (.withByte .cpyImm)
  | 0x1 => some (.withByte .cmpIndx)
  | 0x4 => some (.withByte .cpyZp)
  | 0x5 => some (.withByte .cmpZp)
  | 0x6 => some (.withByte .decZp)
  | 0x8 => some (.noOperand .iny)
  | 0x9 => some (.withByte .cmpImm)
  | 0xA => some (.noOperand .dex)
  | 0xC => some (.withWord .cpyAbs)
  | 0xD => some (.withWord .cmpAbs)
  | 0xE => some (.withWord .decAbs)
  | _ => none

/-- Row Dx of the opcode matrix (30_encoding.md R167). -/
def opRowD : Nat → Option OpForm
  | 0x0 => some (.withOffset .bne)
  | 0x1 => some (.withByte .cmpIndy)
  | 0x5 => some (.withByte .cmpZpx)
  | 0x6 => some (.withByte .decZpx)
  | 0x8 => some (.noOperand .cld)
  | 0x9 => some (.withWord .cmpAbsy)
  | 0xD => some (.withWord .cmpAbsx)
  | 0xE => some (.withWord .decAbsx)
  | _ => none

/-- Row Ex of the opcode matrix (30_encoding.md R167). -/
def opRowE : Nat → Option OpForm
  | 0x0 => some (.withByte .cpxImm)
  | 0x1 => some (.withByte .sbcIndx)
  | 0x4 => some (.withByte .cpxZp)
  | 0x5 => some (.withByte .sbcZp)
  | 0x6 => some (.withByte .incZp)
  | 0x8 => some (.noOperand .inx)
  | 0x9 => some (.withByte .sbcImm)
  | 0xA => some (.noOperand .nop)
  | 0xC => some (.withWord .cpxAbs)
  | 0xD => some (.withWord .sbcAbs)
  | 0xE => some (.withWord .incAbs)
  | _ => none

/-- Row Fx of the opcode matrix (30_encoding.md R167). -/
def opRowF : Nat → Option OpForm
  | 0x0 => some (.withOffset .beq)
  | 0x1 => some (.withByte .sbcIndy)
  | 0x5 => some (.withByte .sbcZpx)
  | 0x6 => some (.withByte .incZpx)
  | 0x8 => some (.noOperand .sed)
  | 0x9 => some (.withWord .sbcAbsy)
  | 0xD => some (.withWord .sbcAbsx)
  | 0xE => some (.withWord .incAbsx)
  | _ => none

/-- The opcode matrix (30_encoding.md R167): `none` is one of the 105 illegal bytes (R160, R161). -/
def opForm (op : Byte) : Option OpForm :=
  let lo := op.toNat % 16
  match op.toNat / 16 with
  | 0x0 => opRow0 lo
  | 0x1 => opRow1 lo
  | 0x2 => opRow2 lo
  | 0x3 => opRow3 lo
  | 0x4 => opRow4 lo
  | 0x5 => opRow5 lo
  | 0x6 => opRow6 lo
  | 0x7 => opRow7 lo
  | 0x8 => opRow8 lo
  | 0x9 => opRow9 lo
  | 0xA => opRowA lo
  | 0xB => opRowB lo
  | 0xC => opRowC lo
  | 0xD => opRowD lo
  | 0xE => opRowE lo
  | 0xF => opRowF lo
  | _ => none

/-- Why a byte string is not an instruction. -/
inductive DecodeError where
  /-- The first byte is not one of the 151 legal opcodes (30_encoding.md R160). -/
  | illegalOpcode (op : Byte)
  /-- The bytes end before the instruction does. -/
  | truncated
  deriving DecidableEq, Repr

/-- Decode the instruction at the head of a byte string; with it, the bytes that follow (30_encoding.md R143). -/
def decode : List Byte → Except DecodeError (Instr × List Byte)
  | [] => .error .truncated
  | op :: rest =>
    match opForm op with
    | none => .error (.illegalOpcode op)
    | some (.noOperand i) => .ok (i, rest)
    | some (.withByte f) =>
      match rest with
      | b1 :: rest => .ok (f b1, rest)
      | [] => .error .truncated
    | some (.withOffset f) =>
      match rest with
      | b1 :: rest => .ok (f (sext8 b1), rest)
      | [] => .error .truncated
    | some (.withWord f) =>
      match rest with
      | b1 :: b2 :: rest => .ok (f (wordOf b1 b2), rest)
      | _ => .error .truncated

/-- Format F2 with a byte operand, F2 with a displacement, and F3, low byte first (30_encoding.md R140). -/
def formatByte (op b1 : Byte) : List Byte := [op, b1]
def formatOffset (op : Byte) (off : Int) : List Byte := [op, byteOfInt off]
def formatWord (op : Byte) (w : Word) : List Byte := [op, loByte w, hiByte w]

/-- The bytes of an instruction, in address order (30_encoding.md R140, R168). -/
def encode : Instr → List Byte
  | .adcIndx zp => formatByte 0x61 zp
  | .adcZp zp => formatByte 0x65 zp
  | .adcImm v => formatByte 0x69 v
  | .adcAbs addr => formatWord 0x6D addr
  | .adcIndy zp => formatByte 0x71 zp
  | .adcZpx zp => formatByte 0x75 zp
  | .adcAbsy addr => formatWord 0x79 addr
  | .adcAbsx addr => formatWord 0x7D addr
  | .andIndx zp => formatByte 0x21 zp
  | .andZp zp => formatByte 0x25 zp
  | .andImm v => formatByte 0x29 v
  | .andAbs addr => formatWord 0x2D addr
  | .andIndy zp => formatByte 0x31 zp
  | .andZpx zp => formatByte 0x35 zp
  | .andAbsy addr => formatWord 0x39 addr
  | .andAbsx addr => formatWord 0x3D addr
  | .aslZp zp => formatByte 0x06 zp
  | .aslAcc => [0x0A]
  | .aslAbs addr => formatWord 0x0E addr
  | .aslZpx zp => formatByte 0x16 zp
  | .aslAbsx addr => formatWord 0x1E addr
  | .bcc off => formatOffset 0x90 off
  | .bcs off => formatOffset 0xB0 off
  | .beq off => formatOffset 0xF0 off
  | .bitZp zp => formatByte 0x24 zp
  | .bitAbs addr => formatWord 0x2C addr
  | .bmi off => formatOffset 0x30 off
  | .bne off => formatOffset 0xD0 off
  | .bpl off => formatOffset 0x10 off
  | .brk => [0x00]
  | .bvc off => formatOffset 0x50 off
  | .bvs off => formatOffset 0x70 off
  | .clc => [0x18]
  | .cld => [0xD8]
  | .cli => [0x58]
  | .clv => [0xB8]
  | .cmpIndx zp => formatByte 0xC1 zp
  | .cmpZp zp => formatByte 0xC5 zp
  | .cmpImm v => formatByte 0xC9 v
  | .cmpAbs addr => formatWord 0xCD addr
  | .cmpIndy zp => formatByte 0xD1 zp
  | .cmpZpx zp => formatByte 0xD5 zp
  | .cmpAbsy addr => formatWord 0xD9 addr
  | .cmpAbsx addr => formatWord 0xDD addr
  | .cpxImm v => formatByte 0xE0 v
  | .cpxZp zp => formatByte 0xE4 zp
  | .cpxAbs addr => formatWord 0xEC addr
  | .cpyImm v => formatByte 0xC0 v
  | .cpyZp zp => formatByte 0xC4 zp
  | .cpyAbs addr => formatWord 0xCC addr
  | .decZp zp => formatByte 0xC6 zp
  | .decAbs addr => formatWord 0xCE addr
  | .decZpx zp => formatByte 0xD6 zp
  | .decAbsx addr => formatWord 0xDE addr
  | .dex => [0xCA]
  | .dey => [0x88]
  | .eorIndx zp => formatByte 0x41 zp
  | .eorZp zp => formatByte 0x45 zp
  | .eorImm v => formatByte 0x49 v
  | .eorAbs addr => formatWord 0x4D addr
  | .eorIndy zp => formatByte 0x51 zp
  | .eorZpx zp => formatByte 0x55 zp
  | .eorAbsy addr => formatWord 0x59 addr
  | .eorAbsx addr => formatWord 0x5D addr
  | .incZp zp => formatByte 0xE6 zp
  | .incAbs addr => formatWord 0xEE addr
  | .incZpx zp => formatByte 0xF6 zp
  | .incAbsx addr => formatWord 0xFE addr
  | .inx => [0xE8]
  | .iny => [0xC8]
  | .jmpAbs addr => formatWord 0x4C addr
  | .jmpInd ptr => formatWord 0x6C ptr
  | .jsr addr => formatWord 0x20 addr
  | .ldaIndx zp => formatByte 0xA1 zp
  | .ldaZp zp => formatByte 0xA5 zp
  | .ldaImm v => formatByte 0xA9 v
  | .ldaAbs addr => formatWord 0xAD addr
  | .ldaIndy zp => formatByte 0xB1 zp
  | .ldaZpx zp => formatByte 0xB5 zp
  | .ldaAbsy addr => formatWord 0xB9 addr
  | .ldaAbsx addr => formatWord 0xBD addr
  | .ldxImm v => formatByte 0xA2 v
  | .ldxZp zp => formatByte 0xA6 zp
  | .ldxAbs addr => formatWord 0xAE addr
  | .ldxZpy zp => formatByte 0xB6 zp
  | .ldxAbsy addr => formatWord 0xBE addr
  | .ldyImm v => formatByte 0xA0 v
  | .ldyZp zp => formatByte 0xA4 zp
  | .ldyAbs addr => formatWord 0xAC addr
  | .ldyZpx zp => formatByte 0xB4 zp
  | .ldyAbsx addr => formatWord 0xBC addr
  | .lsrZp zp => formatByte 0x46 zp
  | .lsrAcc => [0x4A]
  | .lsrAbs addr => formatWord 0x4E addr
  | .lsrZpx zp => formatByte 0x56 zp
  | .lsrAbsx addr => formatWord 0x5E addr
  | .nop => [0xEA]
  | .oraIndx zp => formatByte 0x01 zp
  | .oraZp zp => formatByte 0x05 zp
  | .oraImm v => formatByte 0x09 v
  | .oraAbs addr => formatWord 0x0D addr
  | .oraIndy zp => formatByte 0x11 zp
  | .oraZpx zp => formatByte 0x15 zp
  | .oraAbsy addr => formatWord 0x19 addr
  | .oraAbsx addr => formatWord 0x1D addr
  | .pha => [0x48]
  | .php => [0x08]
  | .pla => [0x68]
  | .plp => [0x28]
  | .rolZp zp => formatByte 0x26 zp
  | .rolAcc => [0x2A]
  | .rolAbs addr => formatWord 0x2E addr
  | .rolZpx zp => formatByte 0x36 zp
  | .rolAbsx addr => formatWord 0x3E addr
  | .rorZp zp => formatByte 0x66 zp
  | .rorAcc => [0x6A]
  | .rorAbs addr => formatWord 0x6E addr
  | .rorZpx zp => formatByte 0x76 zp
  | .rorAbsx addr => formatWord 0x7E addr
  | .rti => [0x40]
  | .rts => [0x60]
  | .sbcIndx zp => formatByte 0xE1 zp
  | .sbcZp zp => formatByte 0xE5 zp
  | .sbcImm v => formatByte 0xE9 v
  | .sbcAbs addr => formatWord 0xED addr
  | .sbcIndy zp => formatByte 0xF1 zp
  | .sbcZpx zp => formatByte 0xF5 zp
  | .sbcAbsy addr => formatWord 0xF9 addr
  | .sbcAbsx addr => formatWord 0xFD addr
  | .sec => [0x38]
  | .sed => [0xF8]
  | .sei => [0x78]
  | .staIndx zp => formatByte 0x81 zp
  | .staZp zp => formatByte 0x85 zp
  | .staAbs addr => formatWord 0x8D addr
  | .staIndy zp => formatByte 0x91 zp
  | .staZpx zp => formatByte 0x95 zp
  | .staAbsy addr => formatWord 0x99 addr
  | .staAbsx addr => formatWord 0x9D addr
  | .stxZp zp => formatByte 0x86 zp
  | .stxAbs addr => formatWord 0x8E addr
  | .stxZpy zp => formatByte 0x96 zp
  | .styZp zp => formatByte 0x84 zp
  | .styAbs addr => formatWord 0x8C addr
  | .styZpx zp => formatByte 0x94 zp
  | .tax => [0xAA]
  | .tay => [0xA8]
  | .tsx => [0xBA]
  | .txa => [0x8A]
  | .txs => [0x9A]
  | .tya => [0x98]

/-- The bytes of a table word: byte 0 is bits 7:0 of `w`, and so on; bits above `nbits` are 0. Three bytes, the longest instruction. -/
def tableBytes (nbits w : Nat) : List Byte :=
  let v := w % 2 ^ nbits
  [BitVec.ofNat 8 v, BitVec.ofNat 8 (v / 0x100), BitVec.ofNat 8 (v / 0x10000)]

/-- The instruction the decoder reads from a word numbered as spec/opcode_table.json numbers it. -/
def decodeTableWord (nbits w : Nat) : Option Instr :=
  match decode (tableBytes nbits w) with
  | .ok (i, _) => some i
  | .error _ => none

end Sys2Proof
end

