-- ==== Sys2Proof/Config.lean ====
section
/-! DEFINITION. What is fixed for a session: the ROM image (10_state.md R34, 53_scheduler_io.md R631) and the named parameters
of 00_scope.md R10, both as plain data; and the one free value of the machine, the NMI delay draw (60_exceptions.md R720). -/

namespace Sys2Proof

/-- `NMI_DELAY_POLICY` (60_exceptions.md R720, D10). -/
inductive NmiDelayPolicy where
  | draw | immediate | deferred | alternate
  deriving DecidableEq, Repr

/-- `INT_CHECK_ORDER` (60_exceptions.md R710, D9). -/
inductive IntCheckOrder where
  | irqFirst | nmiFirst
  deriving DecidableEq, Repr

/-- `UNLISTED_IO`: CPU $4018 to $5FFF faults, or reads zero and ignores writes (20_memory.md R94, D23). -/
inductive UnlistedIo where
  | fault | zero
  deriving DecidableEq, Repr

/-- `SPRITE_LIMIT` (50_ppu.md R443, D34). -/
inductive SpriteLimit where
  | unlimited | eight
  deriving DecidableEq, Repr

/-- MirroringType (10_state.md R37); the ROM image's mirroring flags are the same four values (52_mappers.md R573). -/
inductive Mirroring where
  | horizontal | vertical | oneScreen | fourScreen
  deriving DecidableEq, Repr

/-- The four bank-switching schemes, the last in its two variants (52_mappers.md R572). -/
inductive Scheme where
  | fixed | bank16 | eightReg | dualA | dualB
  deriving DecidableEq, Repr

/-- `FRAME_STEP_CYCLES` = (S1, S2, S3, S4, S5) (51_apu.md R484, D45). -/
structure FrameSteps where
  s1 : Nat
  s2 : Nat
  s3 : Nat
  s4 : Nat
  s5 : Nat
  deriving DecidableEq, Repr

/-- `MMC3_CLOCK_WINDOW` (52_mappers.md R596, D56), as data: the PPU cycles `loCycle` to `hiCycle` of the scanlines up to
`lastVisible` and of scanline `extraLine` (log 9). -/
structure ClockWindow where
  loCycle     : Nat
  hiCycle     : Nat
  lastVisible : Nat
  extraLine   : Nat
  deriving DecidableEq, Repr

/-- The named parameters of 00_scope.md R10, each with that rule's default. `DMC_STALL` is held as its two values, for an
even and for an odd cycle count (51_apu.md R551); `RAM_INIT` as the contents of the three memories it fills (log 9). -/
structure Params where
  nmiDelayPolicy : NmiDelayPolicy := .draw
  intCheckOrder : IntCheckOrder := .irqFirst
  resetA : Byte := 0x00
  resetX : Byte := 0x00
  resetY : Byte := 0x00
  resetSP : Byte := 0xFD
  resetP : Byte := 0x34
  intCycles : Nat := 7
  resetCycles : Nat := 0
  jmpIndPageWrap : Bool := true
  ramInit : Memory := []
  cartRamInit : Memory := []
  chrRamInit : Memory := []
  unlistedIo : UnlistedIo := .fault
  trainerInstall : Bool := true
  ppuWriteOnlyRead : Byte := 0x00
  oneScreenTable : Fin 4 := 0
  spriteLimit : SpriteLimit := .unlimited
  frameStepCycles : FrameSteps := ⟨7457, 14913, 22371, 29829, 37281⟩
  dmcStallEven : Nat := 513
  dmcStallOdd : Nat := 514
  mapperIds : List (Nat × Scheme) := [(0, .fixed), (2, .bank16), (4, .eightReg), (22, .dualA), (23, .dualB)]
  mmc3ClockWindow : ClockWindow := ⟨260, 262, 239, 261⟩
  vrc2aChrShift : Nat := 0
  controllerExhaustedBit : Bool := true
  deriving DecidableEq, Repr

/-- The ROM image contract (53_scheduler_io.md R631). `prg` and `chr` hold the concatenated pages: byte `k` of PRG page `p` is at
`p * $4000 + k`, byte `k` of CHR page `p` at `p * $2000 + k`. -/
structure RomImage where
  prgPages  : Nat
  chrPages  : Nat
  mapperId  : Nat
  mirroring : Mirroring
  sram      : Bool
  trainer   : Option (List Byte)
  prg       : Memory
  chr       : Memory
  deriving DecidableEq, Repr

/-- The cartridge of `State.reset`: mapper id 0, one PRG page, one CHR page, vertical mirroring, no byte of either listed.
DESIGN CHOICE (log 2): the spec's machine has no state without a ROM image, and no program is invented here. -/
def RomImage.empty : RomImage :=
  { prgPages := 1, chrPages := 1, mapperId := 0, mirroring := .vertical, sram := false, trainer := none, prg := [], chr := [] }

namespace Config

/-- The outcome of the n-th NMI delay draw under `NMI_DELAY_POLICY = draw`: "a free choice, no law, no fairness"
(60_exceptions.md R720). A free value: nothing constrains it (log 5). -/
opaque nmiDraw : Nat → Bool

end Config

end Sys2Proof
end

