-- ==== Sys2Proof/Machine/Memory.lean ====
section
/-! DEFINITION. The sparse byte memory: a list of (address, byte) cells, addresses strictly rising, no cell equal to the fill
byte. A write keeps that form, so equal memories are equal lists (Laws/Memory.lean). -/

namespace Sys2Proof

/-- What an unlisted address reads as: $00, the default of `RAM_INIT` (10_state.md R32, R33, R45) and the power-up value of
every device memory (10_state.md R36). In a ROM image it only says which bytes need no listing (log 4). -/
def Memory.fill : Byte := 0x00

/-- One byte. -/
def Memory.read : Memory → Nat → Byte
  | [], _ => Memory.fill
  | (k, b) :: m, a => if a = k then b else Memory.read m a

/-- Put one cell before a memory, unless it holds the fill byte. -/
def Memory.cons (a : Nat) (b : Byte) (m : Memory) : Memory := if b = Memory.fill then m else (a, b) :: m

/-- Store one byte, in canonical form. -/
def Memory.write : Memory → Nat → Byte → Memory
  | [], a, b => Memory.cons a b []
  | (k, c) :: m, a, b =>
    if a < k then Memory.cons a b ((k, c) :: m)
    else if a = k then Memory.cons a b m
    else (k, c) :: Memory.write m a b

/-- Store the bytes of a list at ascending addresses. -/
def Memory.writeList : Memory → Nat → List Byte → Memory
  | m, _, [] => m
  | m, a, b :: bs => Memory.writeList (m.write a b) (a + 1) bs

/-- The memory that holds `f 0`, …, `f (n − 1)` from address `a` on. -/
def Memory.tabulate (f : Nat → Byte) : Nat → Nat → Memory
  | _, 0 => []
  | a, n + 1 => Memory.cons a (f a) (Memory.tabulate f (a + 1) n)

/-- The canonical form of cells whose addresses are at least `lo` and below `hi`. -/
def Memory.wfFrom : Nat → Nat → Memory → Bool
  | _, _, [] => true
  | lo, hi, (k, b) :: m => decide (lo ≤ k) && decide (k < hi) && (b != Memory.fill) && Memory.wfFrom (k + 1) hi m

/-- The canonical form of a memory of `size` bytes: strictly rising addresses below `size`, no fill byte listed. -/
def Memory.wf (size : Nat) (m : Memory) : Bool := Memory.wfFrom 0 size m

end Sys2Proof
end

