-- ==== Sys2Proof/Machine/State.lean ====
section
/-! DEFINITION. The machine's state as plain data (10_state.md), its faults and refusals, and the state after reset. -/

namespace Sys2Proof.Machine

/-- Which address space an access was made in (20_memory.md R81). -/
inductive Space where
  | cpu | ppu
  deriving DecidableEq, Repr

/-- The two fatal faults (60_exceptions.md R701 to R703). Both are the spec's own outcomes, so both are safe: the step commits
nothing and the machine stops. -/
inductive Fault where
  /-- Raised by `fetch` on one of the 105 illegal opcodes: the address of the opcode byte and its value (R702). Safe. -/
  | illegalOpcode (pc : Word) (op : Byte)
  /-- Raised by `readByte` and `writeByte` on an address no region covers, $4018 to $5FFF under `UNLISTED_IO = fault` (R703,
  20_memory.md R94). Safe. -/
  | unmappedAddress (space : Space) (addr : Nat)
  deriving DecidableEq, Repr

/-- What is refused. None of these is an outcome of a running machine. -/
inductive Refusal where
  /-- An instruction that has no meaning yet; exec's arms only. Safe. -/
  | notModelled (mnemonic : String)
  /-- Raised by `powerUp` on a mapper id outside `MAPPER_IDS`: no machine state exists (52_mappers.md R572). Safe. -/
  | unsupportedMapper (id : Nat)
  /-- Raised by `powerUp` on an image that breaks the core's precondition (53_scheduler_io.md R631, 93 U5; log 11). Safe. -/
  | malformedImage
  deriving DecidableEq, Repr

/-- The seven flags of `P` (10_state.md R24); bit 5 of the byte is not state. -/
structure Flags where
  n : Bool
  v : Bool
  b : Bool
  d : Bool
  i : Bool
  z : Bool
  c : Bool
  deriving DecidableEq, Repr

/-- CpuState (10_state.md R20 to R28). -/
structure Cpu where
  a  : Byte
  x  : Byte
  y  : Byte
  sp : Byte
  pc : Word
  p  : Flags
  cycles     : Nat
  nmiPending : Bool
  nmiDefer   : Bool
  nmiAlt     : Bool
  deriving DecidableEq, Repr

/-- PpuState (10_state.md R35, R36). `nt` holds the four physical nametables one after the other, 1KB each; `frame` holds pixel
(x, y) at `y * 256 + x`; `sprCount` holds `spr_count[y]` at `y`. -/
structure Ppu where
  v : BitVec 15
  t : BitVec 15
  x : BitVec 3
  w : Bool
  ctrl : Byte
  mask : Byte
  vblank         : Bool
  sprite0Hit     : Bool
  spriteOverflow : Bool
  oamaddr    : Byte
  readBuffer : Byte
  oam     : Memory
  nt      : Memory
  palette : Memory
  mirroring : Mirroring
  frame : Memory
  scanline : Nat
  cycle    : Nat
  bgq : Vector (BitVec 4) 16
  sprSnap  : Memory
  sprCount : Memory
  deriving DecidableEq, Repr

/-- The envelope unit of a pulse or noise channel (51_apu.md R488): `len_halt` (also its loop flag), `const_vol`, `vol`,
`env_start`, `env_div`, `env_decay` (10_state.md R40, R42). -/
structure Envelope where
  lenHalt  : Bool
  constVol : Bool
  vol   : BitVec 4
  start : Bool
  div   : BitVec 4
  decay : BitVec 4
  deriving DecidableEq, Repr

/-- A pulse channel (10_state.md R40). -/
structure Pulse where
  enabled : Bool
  duty : BitVec 2
  seq  : BitVec 3
  timerPeriod : BitVec 11
  timer       : BitVec 11
  env : Envelope
  length : Byte
  swEnabled : Bool
  swPeriod  : BitVec 3
  swNegate  : Bool
  swShift   : BitVec 3
  swReload  : Bool
  swDiv     : BitVec 3
  deriving DecidableEq, Repr

/-- The triangle channel (10_state.md R41). -/
structure Triangle where
  enabled : Bool
  control : Bool
  linReloadVal : BitVec 7
  lin          : BitVec 7
  linReload    : Bool
  timerPeriod : BitVec 11
  timer       : BitVec 11
  seq : BitVec 5
  length : Byte
  deriving DecidableEq, Repr

/-- The noise channel (10_state.md R42). -/
structure Noise where
  enabled : Bool
  env : Envelope
  mode : Bool
  periodIdx : BitVec 4
  timer : BitVec 12
  lfsr  : BitVec 15
  length : Byte
  deriving DecidableEq, Repr

/-- The delta-modulation channel (10_state.md R43). -/
structure Dmc where
  irqEnable : Bool
  loop : Bool
  rateIdx : BitVec 4
  timer : BitVec 9
  level : BitVec 7
  addrReg : Byte
  lenReg  : Byte
  curAddr  : Word
  bytesRem : BitVec 12
  buf : Byte
  bufFull : Bool
  shift : Byte
  bitsRem : BitVec 4
  silence : Bool
  dmcIrq : Bool
  deriving DecidableEq, Repr

/-- The APU: shared state (10_state.md R39) and the five channels. -/
structure Apu where
  fc : Nat
  fmode      : Bool
  irqInhibit : Bool
  frameIrq   : Bool
  half       : Bool
  pulse0 : Pulse
  pulse1 : Pulse
  triangle : Triangle
  noise : Noise
  dmc : Dmc
  deriving DecidableEq, Repr

/-- The eight-register scheme's registers (10_state.md R45, 52_mappers.md R590). -/
structure EightReg where
  bankSelect : Byte
  r : Vector Byte 8
  mirror : Bool
  ramProtect : Byte
  irqLatch   : Byte
  irqCounter : Byte
  irqReload  : Bool
  irqEnabled : Bool
  irqLine    : Bool
  deriving DecidableEq, Repr

/-- The dual-variant scheme's registers (10_state.md R45, 52_mappers.md R612); `variantA` is mapper id 22. -/
structure DualBank where
  variantA : Bool
  prg0 : BitVec 5
  prg1 : BitVec 5
  mirror : Bool
  chrLo : Vector (BitVec 4) 8
  chrHi : Vector (BitVec 4) 8
  deriving DecidableEq, Repr

/-- MapperState: one of the four schemes (10_state.md R44, R45). -/
inductive Mapper where
  | fixed
  | bank16 (bank : Byte)
  | eightReg (r : EightReg)
  | dual (d : DualBank)
  deriving DecidableEq, Repr

/-- A registered IRQ source (10_state.md R29, 52_mappers.md R574). -/
inductive IrqSource where
  | apu | mapper
  deriving DecidableEq, Repr

/-- The eight button levels of a controller, in polling order (53_scheduler_io.md R660); true = pressed. -/
structure Buttons where
  a      : Bool
  b      : Bool
  select : Bool
  start  : Bool
  up     : Bool
  down   : Bool
  left   : Bool
  right  : Bool
  deriving DecidableEq, Repr

/-- No button pressed. -/
def Buttons.released : Buttons := ⟨false, false, false, false, false, false, false, false⟩

/-- What the host may do between two Scheduler iterations (00_scope.md R7, D63): let the machine run one, set a controller's levels
(R660), press the console's reset (70_reset_and_hazards.md R752), or pause (53_scheduler_io.md R651). Log 6. -/
inductive HostEvent where
  | proceed
  | buttons (second : Bool) (levels : Buttons)
  | reset
  | pause
  deriving DecidableEq, Repr

/-- The controllers' shift registers (10_state.md R46) and the host's button levels (log 6). -/
structure Controllers where
  strobe : Bool
  index0 : Nat
  index1 : Nat
  buttons0 : Buttons
  buttons1 : Buttons
  deriving DecidableEq, Repr

/-- What the write-only sinks have received (53_scheduler_io.md R652): the model's own record (log 7). -/
structure Sinks where
  samplesOut : Nat
  lastSample : Byte
  framesOut  : Nat
  lastFrame  : Memory
  deriving DecidableEq, Repr

/-- The whole machine. -/
structure State where
  cpu : Cpu
  ram     : Memory
  cartRam : Memory
  chrRam  : Memory
  ppu : Ppu
  apu : Apu
  mapper : Mapper
  pads : Controllers
  synced     : Nat
  prevVblank : Bool
  fault : Option Fault
  sinks : Sinks
  draws : Nat
  hostQueue : List HostEvent
  irqSources : List IrqSource
  rom    : RomImage
  params : Params
  deriving DecidableEq, Repr

/-- The flags of a status byte with its bit 4 as B: `unpack(v); P.B <- v[4]` (70_reset_and_hazards.md R751). -/
def Flags.ofResetByte (v : Byte) : Flags :=
  { n := v.getLsbD 7, v := v.getLsbD 6, b := v.getLsbD 4, d := v.getLsbD 3, i := v.getLsbD 2, z := v.getLsbD 1, c := v.getLsbD 0 }

/-- PpuState at power-up (10_state.md R36). -/
def Ppu.powerUp (m : Mirroring) : Ppu :=
  { v := 0, t := 0, x := 0, w := false, ctrl := 0, mask := 0, vblank := false, sprite0Hit := false, spriteOverflow := false,
    oamaddr := 0, readBuffer := 0, oam := [], nt := [], palette := [], mirroring := m, frame := [], scanline := 0, cycle := 0,
    bgq := Vector.replicate 16 0, sprSnap := [], sprCount := [] }

/-- The envelope at power-up: all 0. -/
def Envelope.zero : Envelope := ⟨false, false, 0, false, 0, 0⟩

/-- A pulse channel at power-up: all 0 (10_state.md R40). -/
def Pulse.zero : Pulse := ⟨false, 0, 0, 0, 0, Envelope.zero, 0, false, 0, false, 0, false, 0⟩

/-- `APU.power_up()`: all 0 but `lfsr` = 1, `cur_addr` = $C000, `bits_rem` = 8, `silence` = 1 (51_apu.md R560). -/
def Apu.powerUp : Apu :=
  { fc := 0, fmode := false, irqInhibit := false, frameIrq := false, half := false, pulse0 := Pulse.zero, pulse1 := Pulse.zero,
    triangle := ⟨false, false, 0, 0, false, 0, 0, 0, 0⟩,
    noise := ⟨false, Envelope.zero, false, 0, 0, 1, 0⟩,
    dmc := ⟨false, false, 0, 0, 0, 0, 0, 0xC000, 0, 0, false, 0, 8, true, false⟩ }

/-- The controllers at power-up (10_state.md R46), no button pressed (log 6). -/
def Controllers.powerUp : Controllers := ⟨false, 0, 0, Buttons.released, Buttons.released⟩

/-- Nothing has been delivered yet. -/
def Sinks.none : Sinks := ⟨0, 0, 0, []⟩

/-- The machine right after power-up with the parameters' defaults and the empty cartridge (70_reset_and_hazards.md R750, R753).
PC is the empty cartridge's reset vector, $0000 (log 2). Machine/Reset.lean's `powerUp` builds the same state. -/
def State.reset : State :=
  { cpu :=
      { a := 0x00, x := 0x00, y := 0x00, sp := 0xFD, pc := 0x0000, p := Flags.ofResetByte 0x34, cycles := 0,
        nmiPending := false, nmiDefer := false, nmiAlt := false }
    ram := [], cartRam := [], chrRam := []
    ppu := Ppu.powerUp .vertical
    apu := Apu.powerUp
    mapper := .fixed
    pads := Controllers.powerUp
    synced := 0
    prevVblank := false
    fault := none
    sinks := Sinks.none
    draws := 0
    hostQueue := []
    irqSources := [.apu]
    rom := RomImage.empty
    params := {} }

end Sys2Proof.Machine
end

