-- ==== Sys2Proof/Machine/Flags.lean ====
section
/-! DEFINITION. The flags byte (10_state.md R24 to R26) and every flag computation of the instruction set. -/

namespace Sys2Proof.Machine

/-- `setNZ(v)` (00_scope.md R13). -/
def Flags.setNZ (p : Flags) (v : Byte) : Flags := { p with z := v == 0, n := v.getLsbD 7 }

/-- `pack(b)`: N V 1 b D I Z C (10_state.md R26). -/
def Flags.pack (p : Flags) (b : Bool) : Byte :=
  BitVec.ofNat 8 (bit01 p.n * 0x80 + bit01 p.v * 0x40 + 0x20 + bit01 b * 0x10 + bit01 p.d * 0x08 + bit01 p.i * 0x04
    + bit01 p.z * 0x02 + bit01 p.c)

/-- `unpack(v)`: N V D I Z C from bits 7 6 3 2 1 0, bits 5 and 4 ignored (10_state.md R26). -/
def Flags.unpack (p : Flags) (v : Byte) : Flags :=
  { p with n := v.getLsbD 7, v := v.getLsbD 6, d := v.getLsbD 3, i := v.getLsbD 2, z := v.getLsbD 1, c := v.getLsbD 0 }

/-- ADC's 9-bit intermediate (41_alu_logic_compare.md R231). -/
def addSum (a m : Byte) (c : Bool) : Nat := a.toNat + m.toNat + bit01 c

/-- ADC: the result and the flags, always binary (41_alu_logic_compare.md R231). -/
def Flags.adc (p : Flags) (a m : Byte) : Byte × Flags :=
  let sum := addSum a m p.c
  let res : Byte := BitVec.ofNat 8 sum
  (res, { p with c := decide (sum > 0xFF), v := (~~~(a ^^^ m) &&& (a ^^^ res) &&& 0x80) != 0 }.setNZ res)

/-- SBC: the result and the flags, always binary (41_alu_logic_compare.md R232). -/
def Flags.sbc (p : Flags) (a m : Byte) : Byte × Flags :=
  let sum := addSum a (m ^^^ 0xFF) p.c
  let res : Byte := BitVec.ofNat 8 sum
  (res, { p with c := decide (sum > 0xFF), v := ((a ^^^ m) &&& (a ^^^ res) &&& 0x80) != 0 }.setNZ res)

/-- CMP, CPX, CPY (41_alu_logic_compare.md R236 to R238). -/
def Flags.compare (p : Flags) (r m : Byte) : Flags :=
  { p with c := decide (m.toNat ≤ r.toNat), z := r == m, n := (r - m).getLsbD 7 }

/-- BIT: Z from the AND, N and V from the operand (41_alu_logic_compare.md R239). -/
def Flags.bitTest (p : Flags) (a m : Byte) : Flags :=
  { p with z := (a &&& m) == 0, n := m.getLsbD 7, v := m.getLsbD 6 }

/-- ASL (42_shift_incdec.md R261). -/
def Flags.asl (p : Flags) (v : Byte) : Byte × Flags :=
  let res := v <<< 1
  (res, { p with c := v.getLsbD 7 }.setNZ res)

/-- LSR (42_shift_incdec.md R262). -/
def Flags.lsr (p : Flags) (v : Byte) : Byte × Flags :=
  let res := v >>> 1
  (res, { p with c := v.getLsbD 0 }.setNZ res)

/-- ROL, the old carry into bit 0 (42_shift_incdec.md R263). -/
def Flags.rol (p : Flags) (v : Byte) : Byte × Flags :=
  let res := v <<< 1 ||| (if p.c then 0x01 else 0x00)
  (res, { p with c := v.getLsbD 7 }.setNZ res)

/-- ROR, the old carry into bit 7 (42_shift_incdec.md R264). -/
def Flags.ror (p : Flags) (v : Byte) : Byte × Flags :=
  let res := v >>> 1 ||| (if p.c then 0x80 else 0x00)
  (res, { p with c := v.getLsbD 0 }.setNZ res)

/-- INC, INX, INY: modulo 256, C and V untouched (42_shift_incdec.md R265, R267, R268). -/
def Flags.inc (p : Flags) (v : Byte) : Byte × Flags := (v + 1, p.setNZ (v + 1))

/-- DEC, DEX, DEY: modulo 256, C and V untouched (42_shift_incdec.md R266, R269, R270). -/
def Flags.dec (p : Flags) (v : Byte) : Byte × Flags := (v - 1, p.setNZ (v - 1))

/-- A logic operation's result with its N and Z (41_alu_logic_compare.md R233 to R235). -/
def Flags.logic (f : Byte → Byte → Byte) (p : Flags) (a m : Byte) : Byte × Flags := (f a m, p.setNZ (f a m))

end Sys2Proof.Machine
end

