-- ==== Sys2Proof/Machine/Apu.lean ====
section
/-! DEFINITION. The APU's units and registers (51_apu.md): frame sequencer clocks, envelopes, length counters, sweeps, timers,
outputs, mixer, register reads and writes. The per-cycle step, which reads CPU memory for the DMC, is in Machine/ApuCycle.lean. -/

namespace Sys2Proof.Machine

/-! ## Tables -/

/-- `LENGTH_TABLE` (51_apu.md R489). -/
def lengthTable (i : BitVec 5) : Byte :=
  ([10, 254, 20, 2, 40, 4, 80, 6, 160, 8, 60, 10, 14, 12, 26, 14,
    12, 16, 24, 18, 48, 20, 96, 22, 192, 24, 72, 26, 16, 28, 32, 30] : List Byte).getD i.toNat 0

/-- `DUTY[duty][seq]` (51_apu.md R492). -/
def dutyTable (duty : BitVec 2) (seq : BitVec 3) : Bool :=
  ((match duty.toNat with
    | 0 => [false, true, false, false, false, false, false, false]
    | 1 => [false, true, true, false, false, false, false, false]
    | 2 => [false, true, true, true, true, false, false, false]
    | _ => [true, false, false, true, true, true, true, true]) : List Bool).getD seq.toNat false

/-- `TRI[seq]`: 15 down to 0, then 0 up to 15 (51_apu.md R513). -/
def triangleTable (seq : BitVec 5) : Nat := if seq.toNat < 16 then 15 - seq.toNat else seq.toNat - 16

/-- `NOISE_PERIOD`, in CPU cycles (51_apu.md R522). -/
def noisePeriod (i : BitVec 4) : Nat :=
  ([4, 8, 16, 32, 64, 96, 128, 160, 202, 254, 380, 508, 762, 1016, 2034, 4068] : List Nat).getD i.toNat 0

/-- `DMC_RATE`, in CPU cycles per output bit (51_apu.md R534). -/
def dmcRate (i : BitVec 4) : Nat :=
  ([428, 380, 340, 320, 286, 254, 226, 214, 190, 160, 142, 128, 106, 84, 72, 54] : List Nat).getD i.toNat 0

/-! ## Units -/

/-- Envelope clock (51_apu.md R488). -/
def Envelope.clock (e : Envelope) : Envelope :=
  if e.start then { e with start := false, decay := 15, div := e.vol }
  else if e.div = 0 then
    if e.decay ≠ 0 then { e with div := e.vol, decay := e.decay - 1 }
    else if e.lenHalt then { e with div := e.vol, decay := 15 }
    else { e with div := e.vol }
  else { e with div := e.div - 1 }

/-- `env_out` (51_apu.md R488). -/
def Envelope.output (e : Envelope) : Nat := (if e.constVol then e.vol else e.decay).toNat

/-- The first register of a pulse or noise channel, bits 5, 4 and 3:0 (51_apu.md R490, R520). -/
def Envelope.writeControl (e : Envelope) (value : Byte) : Envelope :=
  { e with lenHalt := value.getLsbD 5, constVol := value.getLsbD 4, vol := value.setWidth 4 }

/-- Length counter clock (51_apu.md R489). -/
def lengthClock (halt : Bool) (length : Byte) : Byte := if halt = false ∧ length ≠ 0 then length - 1 else length

/-- Length counter load by a channel's fourth register: only while the channel is enabled (51_apu.md R489). -/
def lengthLoad (enabled : Bool) (length value : Byte) : Byte :=
  if enabled then lengthTable ((value >>> 3).setWidth 5) else length

/-- `timer_period <- (timer_period & $700) | value` (51_apu.md R490, R510). -/
def periodLow (period : BitVec 11) (value : Byte) : BitVec 11 := (period &&& 0x700) ||| value.setWidth 11

/-- `timer_period <- (timer_period & $0FF) | (value[2:0] << 8)` (51_apu.md R490, R510). -/
def periodHigh (period : BitVec 11) (value : Byte) : BitVec 11 := (period &&& 0x0FF) ||| ((value &&& 7).setWidth 11 <<< 8)

/-! ## Pulse channels -/

/-- The sweep's target period; `first` is pulse 1, which subtracts one more (51_apu.md R493). -/
def Pulse.target (c : Pulse) (first : Bool) : Int :=
  let period : Int := c.timerPeriod.toNat
  let change : Int := (c.timerPeriod >>> c.swShift.toNat).toNat
  if c.swNegate then period - change - (if first then 1 else 0) else period + change

/-- The sweep's muting (51_apu.md R493). -/
def Pulse.mute (c : Pulse) (first : Bool) : Bool := decide (c.timerPeriod.toNat < 8) || decide (c.target first > 0x7FF)

/-- Sweep clock, every half frame (51_apu.md R493). -/
def Pulse.sweepClock (c : Pulse) (first : Bool) : Pulse :=
  let period := if c.swDiv = 0 ∧ c.swEnabled ∧ c.swShift ≠ 0 ∧ c.mute first = false then BitVec.ofInt 11 (c.target first) else c.timerPeriod
  if c.swDiv = 0 ∨ c.swReload then { c with timerPeriod := period, swDiv := c.swPeriod, swReload := false }
  else { c with timerPeriod := period, swDiv := c.swDiv - 1 }

/-- Pulse timer clock (51_apu.md R491). -/
def Pulse.timerClock (c : Pulse) : Pulse :=
  if c.timer = 0 then { c with timer := c.timerPeriod, seq := c.seq + 1 } else { c with timer := c.timer - 1 }

/-- Pulse output, 0 to 15 (51_apu.md R494). -/
def Pulse.output (c : Pulse) (first : Bool) : Nat :=
  if c.length = 0 ∨ dutyTable c.duty c.seq = false ∨ c.mute first then 0 else c.env.output

/-- Pulse registers, offset 0 to 3 (51_apu.md R490). -/
def Pulse.write (c : Pulse) (offset : Nat) (value : Byte) : Pulse :=
  match offset with
  | 0 => { c with duty := (value >>> 6).setWidth 2, env := c.env.writeControl value }
  | 1 => { c with swEnabled := value.getLsbD 7, swPeriod := (value >>> 4).setWidth 3, swNegate := value.getLsbD 3,
                  swShift := value.setWidth 3, swReload := true }
  | 2 => { c with timerPeriod := periodLow c.timerPeriod value }
  | _ => { c with timerPeriod := periodHigh c.timerPeriod value, length := lengthLoad c.enabled c.length value, seq := 0,
                  env := { c.env with start := true } }

/-- The $4015 enable bit of a pulse channel (51_apu.md R540). -/
def Pulse.enable (c : Pulse) (on : Bool) : Pulse := { c with enabled := on, length := if on then c.length else 0 }

/-! ## Triangle channel -/

/-- Linear counter clock, every quarter frame (51_apu.md R511). -/
def Triangle.linearClock (c : Triangle) : Triangle :=
  { c with lin := (if c.linReload then c.linReloadVal else if c.lin ≠ 0 then c.lin - 1 else c.lin),
           linReload := c.linReload && c.control }

/-- Triangle timer clock, every APU cycle (51_apu.md R512). -/
def Triangle.timerClock (c : Triangle) : Triangle :=
  if c.timer = 0 then
    { c with timer := c.timerPeriod, seq := if c.length ≠ 0 ∧ c.lin ≠ 0 then c.seq + 1 else c.seq }
  else { c with timer := c.timer - 1 }

/-- Triangle output, 0 to 15 (51_apu.md R513). -/
def Triangle.output (c : Triangle) : Nat := triangleTable c.seq

/-- Triangle registers, offset 0 to 3 from $4008 (51_apu.md R510). -/
def Triangle.write (c : Triangle) (offset : Nat) (value : Byte) : Triangle :=
  match offset with
  | 0 => { c with control := value.getLsbD 7, linReloadVal := value.setWidth 7 }
  | 1 => c
  | 2 => { c with timerPeriod := periodLow c.timerPeriod value }
  | _ => { c with timerPeriod := periodHigh c.timerPeriod value, length := lengthLoad c.enabled c.length value, linReload := true }

/-- The $4015 enable bit of the triangle channel (51_apu.md R540). -/
def Triangle.enable (c : Triangle) (on : Bool) : Triangle := { c with enabled := on, length := if on then c.length else 0 }

/-! ## Noise channel -/

/-- One step of the linear-feedback shift register, tap 6 or 1 (51_apu.md R521). -/
def lfsrStep (mode : Bool) (lfsr : BitVec 15) : BitVec 15 :=
  let fb := lfsr.getLsbD 0 ^^ (if mode then lfsr.getLsbD 6 else lfsr.getLsbD 1)
  (lfsr >>> 1) ||| (BitVec.ofNat 15 (bit01 fb) <<< 14)

/-- Noise timer clock (51_apu.md R521). -/
def Noise.timerClock (c : Noise) : Noise :=
  if c.timer = 0 then { c with timer := BitVec.ofNat 12 (noisePeriod c.periodIdx / 2 - 1), lfsr := lfsrStep c.mode c.lfsr }
  else { c with timer := c.timer - 1 }

/-- Noise output, 0 to 15 (51_apu.md R523). -/
def Noise.output (c : Noise) : Nat := if c.lfsr.getLsbD 0 ∨ c.length = 0 then 0 else c.env.output

/-- Noise registers, offset 0 to 3 from $400C (51_apu.md R520). -/
def Noise.write (c : Noise) (offset : Nat) (value : Byte) : Noise :=
  match offset with
  | 0 => { c with env := c.env.writeControl value }
  | 1 => c
  | 2 => { c with mode := value.getLsbD 7, periodIdx := value.setWidth 4 }
  | _ => { c with length := lengthLoad c.enabled c.length value, env := { c.env with start := true } }

/-- The $4015 enable bit of the noise channel (51_apu.md R540). -/
def Noise.enable (c : Noise) (on : Bool) : Noise := { c with enabled := on, length := if on then c.length else 0 }

/-! ## Delta-modulation channel -/

/-- Restart (51_apu.md R531). -/
def Dmc.restart (c : Dmc) : Dmc :=
  { c with curAddr := 0xC000 + c.addrReg.setWidth 16 * 64, bytesRem := c.lenReg.setWidth 12 * 16 + 1 }

/-- The output level moved by one bit, clamped (51_apu.md R533). -/
def dmcLevel (up : Bool) (level : BitVec 7) : BitVec 7 :=
  if up then (if level.toNat ≤ 125 then level + 2 else level) else (if 2 ≤ level.toNat then level - 2 else level)

/-- The output unit's clock (51_apu.md R533). -/
def Dmc.outputClock (c : Dmc) : Dmc :=
  let c := if c.silence then c else { c with level := dmcLevel (c.shift.getLsbD 0) c.level }
  let c := { c with shift := c.shift >>> 1, bitsRem := c.bitsRem - 1 }
  if c.bitsRem = 0 then
    if c.bufFull then { c with bitsRem := 8, silence := false, shift := c.buf, bufFull := false }
    else { c with bitsRem := 8, silence := true }
  else c

/-- DMC timer clock (51_apu.md R533). -/
def Dmc.timerClock (c : Dmc) : Dmc :=
  if c.timer = 0 then ({ c with timer := BitVec.ofNat 9 (dmcRate c.rateIdx / 2 - 1) } : Dmc).outputClock
  else { c with timer := c.timer - 1 }

/-- The memory reader wants a byte (51_apu.md R532). -/
def Dmc.wantsByte (c : Dmc) : Bool := !c.bufFull && decide (c.bytesRem ≠ 0)

/-- The memory reader after its byte arrived (51_apu.md R532). -/
def Dmc.accept (c : Dmc) (b : Byte) : Dmc :=
  let c := { c with buf := b, bufFull := true, curAddr := if c.curAddr = 0xFFFF then 0x8000 else c.curAddr + 1, bytesRem := c.bytesRem - 1 }
  if c.bytesRem = 0 then
    if c.loop then c.restart else if c.irqEnable then { c with dmcIrq := true } else c
  else c

/-- DMC registers, offset 0 to 3 from $4010 (51_apu.md R530). -/
def Dmc.write (c : Dmc) (offset : Nat) (value : Byte) : Dmc :=
  match offset with
  | 0 => { c with irqEnable := value.getLsbD 7, loop := value.getLsbD 6, rateIdx := value.setWidth 4,
                  dmcIrq := c.dmcIrq && value.getLsbD 7 }
  | 1 => { c with level := value.setWidth 7 }
  | 2 => { c with addrReg := value }
  | _ => { c with lenReg := value }

/-- The $4015 enable bit of the DMC; the write also clears its interrupt flag (51_apu.md R540). -/
def Dmc.enable (c : Dmc) (on : Bool) : Dmc :=
  let c := { c with dmcIrq := false }
  if on = false then { c with bytesRem := 0 } else if c.bytesRem = 0 then c.restart else c

/-! ## Frame sequencer -/

/-- `quarter()` (51_apu.md R486). -/
def Apu.quarter (u : Apu) : Apu :=
  { u with
    pulse0 := { u.pulse0 with env := u.pulse0.env.clock }
    pulse1 := { u.pulse1 with env := u.pulse1.env.clock }
    noise := { u.noise with env := u.noise.env.clock }
    triangle := u.triangle.linearClock }

/-- The length counters' half-frame clock (51_apu.md R487, R489). -/
def Apu.lengthClocks (u : Apu) : Apu :=
  { u with
    pulse0 := { u.pulse0 with length := lengthClock u.pulse0.env.lenHalt u.pulse0.length }
    pulse1 := { u.pulse1 with length := lengthClock u.pulse1.env.lenHalt u.pulse1.length }
    triangle := { u.triangle with length := lengthClock u.triangle.control u.triangle.length }
    noise := { u.noise with length := lengthClock u.noise.env.lenHalt u.noise.length } }

/-- `half_frame()`: length counters, then sweeps (51_apu.md R487). -/
def Apu.halfFrame (u : Apu) : Apu :=
  let u := u.lengthClocks
  { u with pulse0 := u.pulse0.sweepClock true, pulse1 := u.pulse1.sweepClock false }

/-- The frame interrupt of step 4 (51_apu.md R484). -/
def Apu.raiseFrameIrq (u : Apu) : Apu := if u.irqInhibit then u else { u with frameIrq := true }

/-- The frame-sequencer counter's advance and wrap (51_apu.md R484). -/
def Apu.advanceCounter (f : FrameSteps) (u : Apu) : Apu :=
  let fc := u.fc + 1
  { u with fc := if u.fmode = false ∧ fc = f.s4 + 1 then 0 else if u.fmode ∧ fc = f.s5 + 1 then 0 else fc }

/-- Apply `f` if the counter stands at `step`. -/
def Apu.atStep (u : Apu) (step : Nat) (f : Apu → Apu) : Apu := if u.fc = step then f u else u

/-- One step of the frame sequencer (51_apu.md R484). -/
def Apu.sequencerStep (f : FrameSteps) (u : Apu) : Apu :=
  let u := u.advanceCounter f
  let u := u.atStep f.s1 Apu.quarter
  let u := u.atStep f.s2 (fun u => u.quarter.halfFrame)
  let u := u.atStep f.s3 Apu.quarter
  if u.fmode then u.atStep f.s5 (fun u => u.quarter.halfFrame)
  else u.atStep f.s4 (fun u => u.quarter.halfFrame.raiseFrameIrq)

/-- Write of $4017 (51_apu.md R485). -/
def Apu.writeFrameCounter (u : Apu) (value : Byte) : Apu :=
  let u := { u with fmode := value.getLsbD 7, irqInhibit := value.getLsbD 6, frameIrq := u.frameIrq && !value.getLsbD 6, fc := 0 }
  if u.fmode then u.quarter.halfFrame else u

/-! ## Status, registers, interrupt line -/

/-- Write of $4015 (51_apu.md R540). -/
def Apu.writeEnable (u : Apu) (value : Byte) : Apu :=
  { u with
    pulse0 := u.pulse0.enable (value.getLsbD 0)
    pulse1 := u.pulse1.enable (value.getLsbD 1)
    triangle := u.triangle.enable (value.getLsbD 2)
    noise := u.noise.enable (value.getLsbD 3)
    dmc := u.dmc.enable (value.getLsbD 4) }

/-- The status byte of $4015 (51_apu.md R541). -/
def Apu.status (u : Apu) : Byte :=
  BitVec.ofNat 8 (bit01 (u.pulse0.length != 0) + bit01 (u.pulse1.length != 0) * 2 + bit01 (u.triangle.length != 0) * 4
    + bit01 (u.noise.length != 0) * 8 + bit01 (u.dmc.bytesRem != 0) * 16 + bit01 u.frameIrq * 64 + bit01 u.dmc.dmcIrq * 128)

/-- Read of $4015: the status byte; the frame interrupt flag is cleared (51_apu.md R541). -/
def Apu.readStatus (u : Apu) : Byte × Apu := (u.status, { u with frameIrq := false })

/-- `APU.write_register(index, value)` (51_apu.md R481). -/
def Apu.writeRegister (u : Apu) (index : Nat) (value : Byte) : Apu :=
  if index < 0x04 then { u with pulse0 := u.pulse0.write index value }
  else if index < 0x08 then { u with pulse1 := u.pulse1.write (index - 0x04) value }
  else if index < 0x0C then { u with triangle := u.triangle.write (index - 0x08) value }
  else if index < 0x10 then { u with noise := u.noise.write (index - 0x0C) value }
  else if index < 0x14 then { u with dmc := u.dmc.write (index - 0x10) value }
  else if index = 0x15 then u.writeEnable value
  else if index = 0x17 then u.writeFrameCounter value
  else u

/-- The APU as IRQ source (51_apu.md R542). -/
def Apu.asserts (u : Apu) : Bool := u.frameIrq || u.dmc.dmcIrq

/-! ## Mixer -/

/-- The mixer (51_apu.md R550), its exact rational `s` written as one fraction: with `p = p1 + p2`,
`pulse_out = 9588 p / (100 (8128 + 100 p))`, and with `T / D = t / 8227 + n / 12241 + d / 22638`,
`tnd_out = 15979 T / (100 (D + 100 T))`; both are 0 at 0. The sample is `floor (255 s)`, at most 255. -/
def mix (p t n d : Nat) : Byte :=
  let pDen := 100 * (8128 + 100 * p)
  let tNum := t * (12241 * 22638) + n * (8227 * 22638) + d * (8227 * 12241)
  let tDen := 100 * (8227 * 12241 * 22638 + 100 * tNum)
  BitVec.ofNat 8 (min 255 (255 * (9588 * p * tDen + 15979 * tNum * pDen) / (pDen * tDen)))

/-- The sample of the five channels' outputs (51_apu.md R482 step 5, R550). -/
def Apu.sample (u : Apu) : Byte :=
  mix (u.pulse0.output true + u.pulse1.output false) u.triangle.output u.noise.output u.dmc.level.toNat

end Sys2Proof.Machine
end

