-- ==== Sys2Proof/Machine/Mapper.lean ====
section
/-! DEFINITION. The four bank-switching schemes (52_mappers.md): which ROM unit stands at each window as a pure function of the
registers (R575), the register writes, and the eight-register scheme's scanline counter. -/

namespace Sys2Proof.Machine

/-! ## Banks as functions of the registers -/

/-- `prg16(k)`: page `k mod N`, given as its two 8KB units; `half` is 0 or 1 (52_mappers.md R576). -/
def prg16Unit (n k half : Nat) : Nat := 2 * (k % n) + half

/-- `prg8(k)`: 8KB unit `k mod P8`, P8 = 2N (52_mappers.md R576). -/
def prg8Unit (n k : Nat) : Nat := k % (2 * n)

/-- The eight-register scheme's PRG layout, window 0 to 3 = $8000, $A000, $C000, $E000 (52_mappers.md R592). -/
def EightReg.prgUnit (r : EightReg) (n : Nat) : Nat → Nat
  | 0 => prg8Unit n (if r.bankSelect.getLsbD 6 then 2 * n - 2 else r.r[6].toNat)
  | 1 => prg8Unit n r.r[7].toNat
  | 2 => prg8Unit n (if r.bankSelect.getLsbD 6 then r.r[6].toNat else 2 * n - 2)
  | _ => prg8Unit n (2 * n - 1)

/-- The dual-variant scheme's PRG windows (52_mappers.md R610). -/
def DualBank.prgUnit (d : DualBank) (n : Nat) : Nat → Nat
  | 0 => prg8Unit n d.prg0.toNat
  | 1 => prg8Unit n d.prg1.toNat
  | 2 => prg8Unit n (2 * n - 2)
  | _ => prg8Unit n (2 * n - 1)

/-- The 8KB PRG unit at window `w` = 0 to 3 ($8000, $A000, $C000, $E000). A 16KB window is its two halves: R580 for the fixed
mapping, R585 for the switchable 16KB bank. -/
def prgUnit (s : State) (w : Nat) : Nat :=
  let n := s.rom.prgPages
  match s.mapper with
  | .fixed => prg16Unit n (w / 2) (w % 2)
  | .bank16 bank => prg16Unit n (if w < 2 then bank.toNat else n - 1) (w % 2)
  | .eightReg r => r.prgUnit n w
  | .dual d => d.prgUnit n w

/-- C1, the number of 1KB CHR units: 8M, or 8 when CHR is RAM (52_mappers.md R576, R577). -/
def chrUnits (s : State) : Nat := if s.rom.chrPages = 0 then 8 else 8 * s.rom.chrPages

/-- The eight-register scheme's CHR layout before the wrap, slot 0 to 7 (52_mappers.md R593). -/
def EightReg.chrBank (r : EightReg) (slot : Nat) : Byte :=
  match (if r.bankSelect.getLsbD 7 then (slot + 4) % 8 else slot) with
  | 0 => r.r[0] &&& 0xFE
  | 1 => r.r[0] ||| 0x01
  | 2 => r.r[1] &&& 0xFE
  | 3 => r.r[1] ||| 0x01
  | 4 => r.r[2]
  | 5 => r.r[3]
  | 6 => r.r[4]
  | _ => r.r[5]

/-- The dual-variant scheme's CHR selection before the wrap (52_mappers.md R613). -/
def DualBank.chrBank (d : DualBank) (shiftA : Nat) (slot : Nat) : Nat :=
  ((d.chrHi.getD slot 0).toNat * 16 + (d.chrLo.getD slot 0).toNat) >>> (if d.variantA then shiftA else 0)

/-- The 1KB CHR unit at slot 0 to 7 (PPU $0000, $0400, …, $1C00): R581, R587, R593, R613, wrapped by R576. -/
def chrUnit (s : State) (slot : Nat) : Nat :=
  match s.mapper with
  | .fixed | .bank16 _ => 8 * (s.rom.chrPages - 1) + slot
  | .eightReg r => (r.chrBank slot).toNat % chrUnits s
  | .dual d => d.chrBank s.params.vrc2aChrShift slot % chrUnits s

/-! ## Register writes -/

/-- `ppu.set_mirroring` (50_ppu.md R460). -/
def setMirroring (m : Mirroring) (s : State) : State := { s with ppu := { s.ppu with mirroring := m } }

/-- A mirroring register's effect: Vertical on 0, Horizontal on 1, nothing for a four-screen image (52_mappers.md R573, R590, R612). -/
def applyMirrorBit (bit : Bool) (s : State) : State :=
  if s.rom.mirroring = .fourScreen then s else setMirroring (if bit then .horizontal else .vertical) s

/-- The eight-register scheme's registers, selected by `a & $E001` (52_mappers.md R590). -/
def EightReg.write (r : EightReg) (a : Word) (value : Byte) : EightReg :=
  match (a &&& 0xE001).toNat with
  | 0x8000 => { r with bankSelect := value }
  | 0x8001 => { r with r := r.r.setIfInBounds (r.bankSelect &&& 7).toNat value }
  | 0xA000 => { r with mirror := value.getLsbD 0 }
  | 0xA001 => { r with ramProtect := value }
  | 0xC000 => { r with irqLatch := value }
  | 0xC001 => { r with irqCounter := 0, irqReload := true }
  | 0xE000 => { r with irqEnabled := false, irqLine := false }
  | _ => { r with irqEnabled := true }

/-- The dual-variant scheme's sub-register number: address bits 1:0, exchanged for variant a (52_mappers.md R611). -/
def DualBank.sub (d : DualBank) (a : Word) : Nat :=
  if d.variantA then (a.getLsbD 0).toNat * 2 + (a.getLsbD 1).toNat else (a.getLsbD 1).toNat * 2 + (a.getLsbD 0).toNat

/-- One CHR sub-register of the pair of banks `bank`, `bank + 1`: low and high nibble of each in turn (52_mappers.md R612). -/
def DualBank.writeChr (d : DualBank) (bank sub : Nat) (value : Byte) : DualBank :=
  match sub with
  | 0 => { d with chrLo := d.chrLo.setIfInBounds bank (value.setWidth 4) }
  | 1 => { d with chrHi := d.chrHi.setIfInBounds bank (value.setWidth 4) }
  | 2 => { d with chrLo := d.chrLo.setIfInBounds (bank + 1) (value.setWidth 4) }
  | _ => { d with chrHi := d.chrHi.setIfInBounds (bank + 1) (value.setWidth 4) }

/-- The dual-variant scheme's registers, selected by `a & $F000` and `sub` (52_mappers.md R612). -/
def DualBank.write (d : DualBank) (a : Word) (value : Byte) : DualBank :=
  match (a &&& 0xF000).toNat with
  | 0x8000 => { d with prg0 := value.setWidth 5 }
  | 0x9000 => { d with mirror := value.getLsbD 0 }
  | 0xA000 => { d with prg1 := value.setWidth 5 }
  | 0xB000 => d.writeChr 0 (d.sub a) value
  | 0xC000 => d.writeChr 2 (d.sub a) value
  | 0xD000 => d.writeChr 4 (d.sub a) value
  | 0xE000 => d.writeChr 6 (d.sub a) value
  | _ => d

/-- `Mapper.on_cpu_write(address, value)` with the full CPU address, $8000 to $FFFF (52_mappers.md R570, R581, R586, R590, R612). -/
def mapperWrite (a : Word) (value : Byte) (s : State) : State :=
  match s.mapper with
  | .fixed => s
  | .bank16 _ => { s with mapper := .bank16 value }
  | .eightReg r =>
    let s := { s with mapper := .eightReg (r.write a value) }
    if (a &&& 0xE001) = 0xA000 then applyMirrorBit (value.getLsbD 0) s else s
  | .dual d =>
    let s := { s with mapper := .dual (d.write a value) }
    if (a &&& 0xF000) = 0x9000 then applyMirrorBit (value.getLsbD 0) s else s

/-! ## The scanline counter -/

/-- The counter's clock (52_mappers.md R595). -/
def EightReg.clock (r : EightReg) : EightReg :=
  let r := if r.irqCounter = 0 ∨ r.irqReload then { r with irqCounter := r.irqLatch, irqReload := false }
           else { r with irqCounter := r.irqCounter - 1 }
  if r.irqCounter = 0 ∧ r.irqEnabled then { r with irqLine := true } else r

/-- `rendering` (50_ppu.md R402). -/
def Ppu.rendering (p : Ppu) : Bool := p.mask.getLsbD 3 || p.mask.getLsbD 4

/-- The PPU is rendering inside `MMC3_CLOCK_WINDOW` (52_mappers.md R596). -/
def inClockWindow (w : ClockWindow) (p : Ppu) : Bool :=
  p.rendering && (decide (p.scanline ≤ w.lastVisible) || decide (p.scanline = w.extraLine))
    && decide (w.loCycle ≤ p.cycle) && decide (p.cycle ≤ w.hiCycle)

/-- `Mapper.cycle(cpu)` (52_mappers.md R570, R596). -/
def mapperCycle (s : State) : State :=
  match s.mapper with
  | .eightReg r => if inClockWindow s.params.mmc3ClockWindow s.ppu then { s with mapper := .eightReg r.clock } else s
  | _ => s

/-- The mapper as IRQ source (52_mappers.md R597). -/
def Mapper.asserts : Mapper → Bool
  | .eightReg r => r.irqLine
  | _ => false

end Sys2Proof.Machine
end

