-- ==== Sys2Proof/Machine/Space.lean ====
section
/-! DEFINITION. Memory regions and address spaces (20_memory.md R80 to R88), and the machine's two maps: the CPU's 64KB space (R90)
and the PPU's 16KB space (R120). A region names bytes that a component of State owns; it owns none itself (R80). -/

namespace Sys2Proof.Machine

/-! ## Regions -/

/-- The byte arrays that regions refer to: internal RAM, cartridge RAM, PRG ROM, CHR ROM, CHR RAM, nametables. -/
inductive Store where
  | ram | cartRam | prg | chrRom | chrRam | nametable
  deriving DecidableEq, Repr

/-- MemoryRegion (20_memory.md R80); `P` names the device registers of the space. `array`, `readOnly` and `guarded` (the
write-protected array) are `size` bytes of a store from `base` on; `mirror` maps an address modulo onto its source (R85);
`mixed` reads from one target and writes to another, each at its own offset (R86); `zeros` reads $00 and ignores writes. -/
inductive Region (P : Type) where
  | array (st : Store) (base size : Nat)
  | readOnly (st : Store) (base size : Nat)
  | guarded (st : Store) (base size : Nat)
  | mirror (size offset : Nat) (source : Region P)
  | mixed (size : Nat) (rtarget : Region P) (roffset : Nat) (wtarget : Region P) (woffset : Nat)
  | port (p : P) (size : Nat)
  | zeros (size : Nat)
  deriving DecidableEq, Repr

/-- A region's fixed size. -/
def Region.size {P : Type} : Region P → Nat
  | .array _ _ n | .readOnly _ _ n | .guarded _ _ n | .mirror n _ _ | .mixed n _ _ _ _ | .port _ n | .zeros n => n

/-- What an address inside a region comes to: a byte of a store, a device register, or nothing (reads $00, ignores writes). -/
inductive Target (P : Type) where
  | cell (st : Store) (index : Nat)
  | port (p : P) (index : Nat)
  | void
  deriving DecidableEq, Repr

/-- The target of a read at offset `a` (20_memory.md R80, R85, R86). -/
def Region.readTarget {P : Type} : Region P → Nat → Target P
  | .array st base _, a | .readOnly st base _, a | .guarded st base _, a => .cell st (base + a)
  | .mirror _ off src, a => src.readTarget ((a + off) % src.size)
  | .mixed _ rt roff _ _, a => rt.readTarget (a + roff)
  | .port p _, a => .port p a
  | .zeros _, _ => .void

/-- The target of a write at offset `a`; read-only and write-protected arrays ignore it (20_memory.md R87). -/
def Region.writeTarget {P : Type} : Region P → Nat → Target P
  | .array st base _, a => .cell st (base + a)
  | .readOnly _ _ _, _ | .guarded _ _ _, _ => .void
  | .mirror _ off src, a => src.writeTarget ((a + off) % src.size)
  | .mixed _ _ _ wt woff, a => wt.writeTarget (a + woff)
  | .port p _, a => .port p a
  | .zeros _, _ => .void

/-! ## Address spaces -/

/-- AddressSpace: (offset, region) pairs, offsets strictly increasing (20_memory.md R81). -/
abbrev AddressSpace (P : Type) := List (Nat × Region P)

/-- The pair with the greatest offset not above the address (20_memory.md R81, R82). -/
def AddressSpace.covering {P : Type} : AddressSpace P → Nat → Option (Nat × Region P)
  | [], _ => none
  | (o, r) :: sp, a =>
    if a < o then none
    else match AddressSpace.covering sp a with
      | some q => some q
      | none => some (o, r)

/-- Where a read at `a` goes: `none` is unmapped (20_memory.md R82, R84). -/
def AddressSpace.readTarget {P : Type} (sp : AddressSpace P) (a : Nat) : Option (Target P) :=
  match AddressSpace.covering sp a with
  | some (o, r) => if a - o < r.size then some (r.readTarget (a - o)) else none
  | none => none

/-- Where a write at `a` goes (20_memory.md R82, R84). -/
def AddressSpace.writeTarget {P : Type} (sp : AddressSpace P) (a : Nat) : Option (Target P) :=
  match AddressSpace.covering sp a with
  | some (o, r) => if a - o < r.size then some (r.writeTarget (a - o)) else none
  | none => none

/-- `install(offset, region)`: replace the region at that offset, or insert it in order (20_memory.md R83). -/
def AddressSpace.install {P : Type} : AddressSpace P → Nat → Region P → AddressSpace P
  | [], o, r => [(o, r)]
  | (k, q) :: sp, o, r =>
    if o < k then (o, r) :: (k, q) :: sp
    else if o = k then (o, r) :: sp
    else (k, q) :: AddressSpace.install sp o r

/-- The offsets are strictly increasing (20_memory.md R81). -/
def AddressSpace.sorted {P : Type} : AddressSpace P → Bool
  | [] => true
  | [_] => true
  | (o, _) :: (o', r') :: sp => decide (o < o') && AddressSpace.sorted ((o', r') :: sp)

/-! ## The stores -/

/-- A store's bytes. -/
def State.store (s : State) : Store → Memory
  | .ram => s.ram
  | .cartRam => s.cartRam
  | .prg => s.rom.prg
  | .chrRom => s.rom.chr
  | .chrRam => s.chrRam
  | .nametable => s.ppu.nt

/-- One byte of a store. -/
def State.cellAt (s : State) (st : Store) (index : Nat) : Byte := (s.store st).read index

/-- Write one byte of a store. ROM stores have no writable region (20_memory.md R87, R96), so nothing is written there. -/
def State.setCell (s : State) (st : Store) (index : Nat) (b : Byte) : State :=
  match st with
  | .ram => { s with ram := s.ram.write index b }
  | .cartRam => { s with cartRam := s.cartRam.write index b }
  | .chrRam => { s with chrRam := s.chrRam.write index b }
  | .nametable => { s with ppu := { s.ppu with nt := s.ppu.nt.write index b } }
  | .prg | .chrRom => s

/-! ## The CPU map -/

/-- The CPU space's device registers: the eight PPU registers, $4000 to $4017, and the mapper's write side. -/
inductive CpuPort where
  | ppu | io | mapper
  deriving DecidableEq, Repr

/-- A PRG window: reads the 8KB unit the mapper has there, writes go to `on_cpu_write` with the full CPU address (20_memory.md R86,
R96). -/
def prgWindow (s : State) (w : Nat) : Nat × Region CpuPort :=
  let base := 0x8000 + w * 0x2000
  (base, .mixed 0x2000 (.readOnly .prg (prgUnit s w * 0x2000) 0x2000) 0 (.port .mapper 0x10000) base)

/-- The regions at $4018 to $5FFF (20_memory.md R94). -/
def unlistedRegions (u : UnlistedIo) : AddressSpace CpuPort :=
  match u with
  | .fault => []
  | .zero => [(0x4018, .zeros 0x1FE8)]

/-- The "CPU-visible address map (installed by every mapper)" (20_memory.md R90 to R96, 52_mappers.md R571). -/
def cpuSpace (s : State) : AddressSpace CpuPort :=
  (0x0000, .mirror 0x2000 0 (.array .ram 0 0x800)) ::
  (0x2000, .mirror 0x2000 0 (.port .ppu 8)) ::
  (0x4000, .port .io 0x18) ::
  (unlistedRegions s.params.unlistedIo ++
  [(0x6000, .array .cartRam 0 0x2000), prgWindow s 0, prgWindow s 1, prgWindow s 2, prgWindow s 3])

/-! ## The PPU map -/

/-- The PPU space's device registers: the palette. -/
inductive PpuPort where
  | palette
  deriving DecidableEq, Repr

/-- The physical nametable behind a logical slot (20_memory.md R121). -/
def physTable (m : Mirroring) (oneScreenTable : Fin 4) (slot : Nat) : Nat :=
  match m with
  | .horizontal => if slot < 2 then 0 else 1
  | .vertical => slot % 2
  | .oneScreen => oneScreenTable.val
  | .fourScreen => slot

/-- A 1KB CHR slot: ROM, or RAM when the image has no CHR page (52_mappers.md R577, 20_memory.md R123). -/
def chrSlot (s : State) (slot : Nat) : Nat × Region PpuPort :=
  (slot * 0x400,
    if s.rom.chrPages = 0 then .array .chrRam (chrUnit s slot * 0x400) 0x400 else .readOnly .chrRom (chrUnit s slot * 0x400) 0x400)

/-- A nametable slot of the given size at the given offset. -/
def ntSlot (s : State) (offset slot size : Nat) : Nat × Region PpuPort :=
  (offset, .array .nametable (physTable s.ppu.mirroring s.params.oneScreenTable slot * 0x400) size)

/-- The PPU address space (20_memory.md R120, R121, R122): pattern slots, nametable slots and their mirror, palette. -/
def ppuSpace (s : State) : AddressSpace PpuPort :=
  [chrSlot s 0, chrSlot s 1, chrSlot s 2, chrSlot s 3, chrSlot s 4, chrSlot s 5, chrSlot s 6, chrSlot s 7,
   ntSlot s 0x2000 0 0x400, ntSlot s 0x2400 1 0x400, ntSlot s 0x2800 2 0x400, ntSlot s 0x2C00 3 0x400,
   ntSlot s 0x3000 0 0x400, ntSlot s 0x3400 1 0x400, ntSlot s 0x3800 2 0x400, ntSlot s 0x3C00 3 0x300,
   (0x3F00, .mirror 0x100 0 (.port .palette 0x20))]

end Sys2Proof.Machine
end

