-- ==== Sys2Proof/Machine/Ppu.lean ====
section
/-! DEFINITION. The PPU as the CPU sees it: its address space's one-byte accesses (20_memory.md R120 to R123) and its eight registers
(50_ppu.md R400 to R419). The cycle state machine is in Machine/Render.lean. -/

namespace Sys2Proof.Machine

/-- Replace the PPU's state. -/
def State.withPpu (s : State) (p : Ppu) : State := { s with ppu := p }

/-- `pidx`: $10, $14, $18, $1C alias $00, $04, $08, $0C (20_memory.md R122). -/
def paletteIndex (a : Nat) : Nat :=
  let i := a % 0x20
  if i = 0x10 ∨ i = 0x14 ∨ i = 0x18 ∨ i = 0x1C then i - 0x10 else i

/-- `PpuRead`: one byte at `a & $3FFF` (20_memory.md R120). The space is fully covered (60_exceptions.md R703), so `none` never occurs
(Laws/Space.lean). -/
def ppuRead (s : State) (a : Nat) : Byte :=
  match AddressSpace.readTarget (ppuSpace s) (a % 0x4000) with
  | some (.cell st i) => s.cellAt st i
  | some (.port .palette i) => s.ppu.palette.read (paletteIndex i)
  | some .void => 0
  | none => 0

/-- `PpuWrite`: one byte at `a & $3FFF`; ignored by CHR ROM (20_memory.md R120, R123). -/
def ppuWrite (a : Nat) (b : Byte) (s : State) : State :=
  match AddressSpace.writeTarget (ppuSpace s) (a % 0x4000) with
  | some (.cell st i) => s.setCell st i b
  | some (.port .palette i) => s.withPpu { s.ppu with palette := s.ppu.palette.write (paletteIndex i) b }
  | some .void => s
  | none => s

/-- `vinc`: 1, or 32 when ctrl bit 2 is set (50_ppu.md R402). -/
def Ppu.vinc (p : Ppu) : BitVec 15 := if p.ctrl.getLsbD 2 then 32 else 1

/-- Register 0, control (50_ppu.md R410). -/
def Ppu.writeCtrl (p : Ppu) (value : Byte) : Ppu :=
  { p with ctrl := value, t := (p.t &&& 0x73FF) ||| ((value &&& 3).setWidth 15 <<< 10) }

/-- Register 2, status: the byte, and the PPU after the read (50_ppu.md R412). -/
def Ppu.readStatus (p : Ppu) : Byte × Ppu :=
  (BitVec.ofNat 8 (bit01 p.vblank * 0x80 + bit01 p.sprite0Hit * 0x40 + bit01 p.spriteOverflow * 0x20),
    { p with vblank := false, w := false })

/-- Register 4 write, and every byte of an OAM DMA (50_ppu.md R414, R461). -/
def Ppu.writeOam (p : Ppu) (value : Byte) : Ppu :=
  { p with oam := p.oam.write p.oamaddr.toNat value, oamaddr := p.oamaddr + 1 }

/-- Register 5, scroll, two writes steered by `w` (50_ppu.md R415). -/
def Ppu.writeScroll (p : Ppu) (value : Byte) : Ppu :=
  if p.w then
    { p with t := (p.t &&& 0x0C1F) ||| ((value &&& 7).setWidth 15 <<< 12) ||| ((value &&& 0xF8).setWidth 15 <<< 2), w := false }
  else
    { p with t := (p.t &&& 0x7FE0) ||| (value >>> 3).setWidth 15, x := (value &&& 7).setWidth 3, w := true }

/-- Register 6, VRAM address, two writes steered by the same `w` (50_ppu.md R416). -/
def Ppu.writeAddr (p : Ppu) (value : Byte) : Ppu :=
  if p.w then
    let t := (p.t &&& 0x7F00) ||| value.setWidth 15
    { p with t := t, v := t, w := false }
  else
    { p with t := (p.t &&& 0x00FF) ||| ((value &&& 0x3F).setWidth 15 <<< 8), w := true }

/-- Register 7 read: buffered, but immediate in the palette (50_ppu.md R417). -/
def readVramData (s : State) : Byte × State :=
  let a := (s.ppu.v &&& 0x3FFF).toNat
  let next := s.ppu.v + s.ppu.vinc
  if a < 0x3F00 then
    (s.ppu.readBuffer, s.withPpu { s.ppu with readBuffer := ppuRead s a, v := next })
  else
    (ppuRead s a, s.withPpu { s.ppu with readBuffer := ppuRead s (a - 0x1000), v := next })

/-- Register 7 write (50_ppu.md R418). -/
def writeVramData (value : Byte) (s : State) : State :=
  let next := s.ppu.v + s.ppu.vinc
  let s := ppuWrite (s.ppu.v &&& 0x3FFF).toNat value s
  s.withPpu { s.ppu with v := next }

/-- `PPU.read_register(index)` (50_ppu.md R401, R419). -/
def ppuReadRegister (index : Nat) (s : State) : Byte × State :=
  match index with
  | 2 => (s.ppu.readStatus.1, s.withPpu s.ppu.readStatus.2)
  | 4 => (s.ppu.oam.read s.ppu.oamaddr.toNat, s)
  | 7 => readVramData s
  | _ => (s.params.ppuWriteOnlyRead, s)

/-- `PPU.write_register(index, value)` (50_ppu.md R401, R419). -/
def ppuWriteRegister (index : Nat) (value : Byte) (s : State) : State :=
  match index with
  | 0 => s.withPpu (s.ppu.writeCtrl value)
  | 1 => s.withPpu { s.ppu with mask := value }
  | 3 => s.withPpu { s.ppu with oamaddr := value }
  | 4 => s.withPpu (s.ppu.writeOam value)
  | 5 => s.withPpu (s.ppu.writeScroll value)
  | 6 => s.withPpu (s.ppu.writeAddr value)
  | 7 => writeVramData value s
  | _ => s

end Sys2Proof.Machine
end

