-- ==== Sys2Proof/Machine/Io.lean ====
section
/-! DEFINITION. The controller ports (53_scheduler_io.md R660 to R662) and the reads of $4000 to $4017 (20_memory.md R93). -/

namespace Sys2Proof.Machine

/-- The level of button `k`, in polling order (53_scheduler_io.md R660). -/
def Buttons.level (b : Buttons) : Nat → Bool
  | 0 => b.a
  | 1 => b.b
  | 2 => b.select
  | 3 => b.start
  | 4 => b.up
  | 5 => b.down
  | 6 => b.left
  | _ => b.right

/-- Write of $4016: bit 0 latches or unlatches (53_scheduler_io.md R661). -/
def Controllers.writeStrobe (c : Controllers) (value : Byte) : Controllers :=
  if value.getLsbD 0 then { c with strobe := true, index0 := 0, index1 := 0 } else { c with strobe := false }

/-- One serial read: the bit, and the index after it (53_scheduler_io.md R662). -/
def serialRead (exhausted strobe : Bool) (levels : Buttons) (index : Nat) : Bool × Nat :=
  if strobe then (levels.level 0, index)
  else if index < 8 then (levels.level index, index + 1)
  else (exhausted, index)

/-- Read of $4016, controller 1 (53_scheduler_io.md R662). -/
def Controllers.read0 (c : Controllers) (exhausted : Bool) : Bool × Controllers :=
  let r := serialRead exhausted c.strobe c.buttons0 c.index0
  (r.1, { c with index0 := r.2 })

/-- Read of $4017, controller 2 (53_scheduler_io.md R662). -/
def Controllers.read1 (c : Controllers) (exhausted : Bool) : Bool × Controllers :=
  let r := serialRead exhausted c.strobe c.buttons1 c.index1
  (r.1, { c with index1 := r.2 })

/-- A read bit as a byte: bits 7:1 are 0 (53_scheduler_io.md R662). -/
def bitByte (b : Bool) : Byte := if b then 1 else 0

/-- Read of $4000 + index: status, controllers, and $00 without effect elsewhere (20_memory.md R93). -/
def ioRead (index : Nat) (s : State) : Byte × State :=
  match index with
  | 0x15 => (s.apu.readStatus.1, { s with apu := s.apu.readStatus.2 })
  | 0x16 =>
    let r := s.pads.read0 s.params.controllerExhaustedBit
    (bitByte r.1, { s with pads := r.2 })
  | 0x17 =>
    let r := s.pads.read1 s.params.controllerExhaustedBit
    (bitByte r.1, { s with pads := r.2 })
  | _ => (0, s)

end Sys2Proof.Machine
end

