-- ==== Sys2Proof/Machine/Ops.lean ====
section
/-! DEFINITION. The named operations every instruction and every device is written over: registers, one-byte accesses through the
CPU address space, the stack, OAM DMA, interrupt entry and return, the NMI input. -/

namespace Sys2Proof.Machine

/-- How one machine step or one instruction ends. -/
abbrev Result := Host.Outcome State Fault Refusal

/-- How one access ends: a value and the state after its side effect, or a fault (60_exceptions.md R703). -/
inductive Access (α : Type) where
  | ok (v : α) (s : State)
  | fault (f : Fault)

/-! ## Registers -/

/-- The 8-bit registers (10_state.md R21, R23). -/
inductive Reg8 where
  | a | x | y | sp
  deriving DecidableEq, Repr

/-- Read a register. -/
def State.getReg (s : State) : Reg8 → Byte
  | .a => s.cpu.a
  | .x => s.cpu.x
  | .y => s.cpu.y
  | .sp => s.cpu.sp

/-- Write a register. -/
def State.setReg (s : State) : Reg8 → Byte → State
  | .a, v => { s with cpu := { s.cpu with a := v } }
  | .x, v => { s with cpu := { s.cpu with x := v } }
  | .y, v => { s with cpu := { s.cpu with y := v } }
  | .sp, v => { s with cpu := { s.cpu with sp := v } }

/-- Write PC. -/
def State.setPc (s : State) (pc : Word) : State := { s with cpu := { s.cpu with pc := pc } }

/-- Write the flags. -/
def State.setFlags (s : State) (p : Flags) : State := { s with cpu := { s.cpu with p := p } }

/-- `cycles <- cycles + n` (10_state.md R27). -/
def State.addCycles (s : State) (n : Nat) : State := { s with cpu := { s.cpu with cycles := s.cpu.cycles + n } }

/-- Move PC past an instruction of `n` bytes, modulo 65536 (10_state.md R22, 30_encoding.md R143). -/
def State.advance (s : State) (n : Nat) : State := s.setPc (s.cpu.pc + BitVec.ofNat 16 n)

/-! ## One-byte accesses of the CPU address space -/

/-- `MemRead(addr)` (00_scope.md R13; 20_memory.md R82, R90 to R96, R100). The mapper's port is never a read target. -/
def readByte (a : Word) (s : State) : Access Byte :=
  match AddressSpace.readTarget (cpuSpace s) a.toNat with
  | none => .fault (.unmappedAddress .cpu a.toNat)
  | some (.cell st i) => .ok (s.cellAt st i) s
  | some (.port .ppu i) => .ok (ppuReadRegister i s).1 (ppuReadRegister i s).2
  | some (.port .io i) => .ok (ioRead i s).1 (ioRead i s).2
  | some (.port .mapper _) => .ok 0 s
  | some .void => .ok 0 s

/-- The byte at an address that names memory, read without any effect; `none` for a device register or an unmapped address. -/
def peek (s : State) (a : Word) : Option Byte :=
  match AddressSpace.readTarget (cpuSpace s) a.toNat with
  | some (.cell st i) => some (s.cellAt st i)
  | _ => none

/-- OAM DMA's copy of `n` bytes from offset `i` of a page (53_scheduler_io.md R640). -/
def oamCopy (srcPage : Byte) : Nat → Nat → State → Access Unit
  | _, 0, s => .ok () s
  | i, n + 1, s =>
    match readByte (wordOf (BitVec.ofNat 8 i) srcPage) s with
    | .fault f => .fault f
    | .ok b s' => oamCopy srcPage (i + 1) n (s'.withPpu (s'.ppu.writeOam b))

/-- OAM DMA: 256 bytes, then 513 cycles (53_scheduler_io.md R640). -/
def oamDma (srcPage : Byte) (s : State) : Access Unit :=
  match oamCopy srcPage 0 256 s with
  | .fault f => .fault f
  | .ok _ s' => .ok () (s'.addCycles 513)

/-- Write of $4000 + index (20_memory.md R93). -/
def ioWrite (index : Nat) (b : Byte) (s : State) : Access Unit :=
  if index = 0x14 then oamDma b s
  else if index = 0x16 then .ok () { s with pads := s.pads.writeStrobe b }
  else .ok () { s with apu := s.apu.writeRegister index b }

/-- `MemWrite(addr, v)` (00_scope.md R13; 20_memory.md R82, R87, R90 to R96, R101). -/
def writeByte (a : Word) (b : Byte) (s : State) : Access Unit :=
  match AddressSpace.writeTarget (cpuSpace s) a.toNat with
  | none => .fault (.unmappedAddress .cpu a.toNat)
  | some (.cell st i) => .ok () (s.setCell st i b)
  | some (.port .ppu i) => .ok () (ppuWriteRegister i b s)
  | some (.port .io i) => ioWrite i b s
  | some (.port .mapper i) => .ok () (mapperWrite (BitVec.ofNat 16 i) b s)
  | some .void => .ok () s

/-! ## Zero page, stack, vectors: bytes that are always memory (20_memory.md R97, R98; log 12) -/

/-- A byte of page zero, which lies in internal RAM (20_memory.md R91, R98). -/
def zeroPage (s : State) (a : Byte) : Byte := s.ram.read a.toNat

/-- The internal-RAM index of a stack slot, `$0100 | SP` (10_state.md R23). -/
def stackIndex (sp : Byte) : Nat := 0x100 + sp.toNat

/-- `push(v)`: store, then decrement SP (00_scope.md R13, 44_stack_flags_nop.md R330). -/
def push (v : Byte) (s : State) : State :=
  { s with ram := s.ram.write (stackIndex s.cpu.sp) v, cpu := { s.cpu with sp := s.cpu.sp - 1 } }

/-- `pop()`: the byte above SP … -/
def topOfStack (s : State) : Byte := s.ram.read (stackIndex (s.cpu.sp + 1))

/-- … and SP incremented (00_scope.md R13, 44_stack_flags_nop.md R330). -/
def dropTop (s : State) : State := { s with cpu := { s.cpu with sp := s.cpu.sp + 1 } }

/-- `push(w >> 8); push(w & $FF)`, high byte first (43_control_flow.md R290). -/
def pushWord (w : Word) (s : State) : State := push (loByte w) (push (hiByte w) s)

/-- Two pops, low byte first (43_control_flow.md R293, R304). -/
def topWord (s : State) : Word := wordOf (topOfStack s) (topOfStack (dropTop s))

/-- `Read16` of a vector, low byte at the lower address (20_memory.md R97, R110). -/
def vectorAt (s : State) (a : Word) : Word := wordOf ((peek s a).getD 0) ((peek s (a + 1)).getD 0)

/-- The NMI vector's address (20_memory.md R97). -/
def nmiVector : Word := 0xFFFA
/-- The reset vector's address (20_memory.md R97). -/
def resetVector : Word := 0xFFFC
/-- The IRQ and BRK vector's address (20_memory.md R97). -/
def irqVector : Word := 0xFFFE

/-! ## Interrupt entry and return -/

/-- The entry shared by BRK, IRQ and NMI: push the return address and the flags with the given B, set I where the entry does, and
jump through the vector (60_exceptions.md R712, R713; 43_control_flow.md R303). -/
def interruptEntry (ret : Word) (b setI : Bool) (vector : Word) (s : State) : State :=
  let s := push (s.cpu.p.pack b) (pushWord ret s)
  let s := s.setFlags { s.cpu.p with i := s.cpu.p.i || setI }
  s.setPc (vectorAt s vector)

/-- `service_irq()` (60_exceptions.md R712, R714). -/
def serviceIrq (s : State) : State := (interruptEntry s.cpu.pc false true irqVector s).addCycles s.params.intCycles

/-- `service_nmi()`: I unchanged, the latch cleared (60_exceptions.md R713, R714). -/
def serviceNmi (s : State) : State :=
  let s := interruptEntry s.cpu.pc false false nmiVector s
  { s with cpu := { s.cpu with nmiPending := false } }.addCycles s.params.intCycles

/-- RTI: flags, then PC low, then PC high; B forced to 1; nothing added to PC (43_control_flow.md R304, 60_exceptions.md R717). -/
def interruptReturn (s : State) : State :=
  let p := s.cpu.p.unpack (topOfStack s)
  let s := (dropTop s).setFlags { p with b := true }
  let pc := topWord s
  (dropTop (dropTop s)).setPc pc

/-! ## The NMI input -/

/-- `trigger_nmi()` (60_exceptions.md R720, R721). Under `draw` the outcome is the free value of the current draw (log 5). -/
def triggerNmi (s : State) : State :=
  let c := { s.cpu with nmiPending := true }
  match s.params.nmiDelayPolicy with
  | .draw => { s with cpu := { c with nmiDefer := Config.nmiDraw s.draws }, draws := s.draws + 1 }
  | .immediate => { s with cpu := { c with nmiDefer := false } }
  | .deferred => { s with cpu := { c with nmiDefer := true } }
  | .alternate => { s with cpu := { c with nmiDefer := c.nmiAlt, nmiAlt := !c.nmiAlt } }

end Sys2Proof.Machine
end

