-- ==== Sys2Proof/Machine/ApuCycle.lean ====
section
/-! DEFINITION. One `APU.cycle` (51_apu.md R482): frame sequencer, DMC memory reader, timers, mixer. -/

namespace Sys2Proof.Machine

/-- Replace the APU's state. -/
def State.withApu (s : State) (u : Apu) : State := { s with apu := u }

/-- `DMC_STALL(c)` (51_apu.md R551). -/
def dmcStall (p : Params) (c : Nat) : Nat := if c % 2 = 0 then p.dmcStallEven else p.dmcStallOdd

/-- The DMC memory reader: stall, then read, then account for the byte (51_apu.md R532). The read may fault only if `cur_addr` lay
below $8000, which no run reaches. -/
def dmcReader (s : State) : Access Unit :=
  if s.apu.dmc.wantsByte then
    match readByte s.apu.dmc.curAddr (s.addCycles (dmcStall s.params s.cpu.cycles)) with
    | .fault f => .fault f
    | .ok b s' => .ok () (s'.withApu { s'.apu with dmc := s'.apu.dmc.accept b })
  else .ok () s

/-- Steps 3 and 4: the triangle timer every cycle, the others when `half` becomes 1 (51_apu.md R482, R483). -/
def Apu.timers (u : Apu) : Apu :=
  let u := { u with triangle := u.triangle.timerClock, half := !u.half }
  if u.half then
    { u with pulse0 := u.pulse0.timerClock, pulse1 := u.pulse1.timerClock, noise := u.noise.timerClock, dmc := u.dmc.timerClock }
  else u

/-- Step 5: one sample to the sink (51_apu.md R482, R550, R552). -/
def putSample (s : State) : State :=
  { s with sinks := { s.sinks with samplesOut := s.sinks.samplesOut + 1, lastSample := s.apu.sample } }

/-- `APU.cycle(sample_sink, cpu)` (51_apu.md R482). -/
def apuCycle (s : State) : Access Unit :=
  match dmcReader (s.withApu (s.apu.sequencerStep s.params.frameStepCycles)) with
  | .fault f => .fault f
  | .ok _ s' => .ok () (putSample (s'.withApu s'.apu.timers))

end Sys2Proof.Machine
end

