-- ==== Sys2Proof/Machine/Operands.lean ====
section
/-! DEFINITION. The addressing modes (30_encoding.md R144 to R156) and the shared shapes of instructions over them. Every mode is
resolved after PC was moved past the instruction (R143); none of the registers a mode reads changes before it is resolved. -/

namespace Sys2Proof.Machine

/-- The addressing modes that give an effective address, with their operand bytes. -/
inductive Mode where
  | zp (b : Byte)
  | zpx (b : Byte)
  | zpy (b : Byte)
  | abs (w : Word)
  | absx (w : Word)
  | absy (w : Word)
  | indx (b : Byte)
  | indy (b : Byte)
  deriving DecidableEq, Repr

/-- The operand of a reading instruction: an immediate byte, or memory. -/
inductive Source where
  | imm (v : Byte)
  | mem (m : Mode)
  deriving DecidableEq, Repr

/-- The operand of a read-modify-write instruction: the accumulator, or memory. -/
inductive Place where
  | acc
  | mem (m : Mode)
  deriving DecidableEq, Repr

/-- A sixteen-bit pointer in page zero, wrapping within it (30_encoding.md R153, R154). -/
def zeroPagePointer (s : State) (z : Byte) : Word := wordOf (zeroPage s z) (zeroPage s (z + 1))

/-- An indexed address and whether the sum left the base's page (30_encoding.md R150, R151, R154). -/
def indexed (base : Word) (index : Byte) : Word × Bool :=
  let ea := base + index.setWidth 16
  (ea, page base != page ea)

/-- The effective address and the page-cross bit of a mode (30_encoding.md R146 to R151, R153, R154). -/
def effective (s : State) : Mode → Word × Bool
  | .zp b => (b.setWidth 16, false)
  | .zpx b => ((b + s.cpu.x).setWidth 16, false)
  | .zpy b => ((b + s.cpu.y).setWidth 16, false)
  | .abs w => (w, false)
  | .absx w => indexed w s.cpu.x
  | .absy w => indexed w s.cpu.y
  | .indx b => (zeroPagePointer s (b + s.cpu.x), false)
  | .indy b => indexed (zeroPagePointer s b) s.cpu.y

/-- The operand value of a reading instruction: `b1`, or one `MemRead(ea)` (40_load_store_transfer.md R200, 41_alu_logic_compare.md R230). -/
def fetchSource (src : Source) (s : State) : Access Byte :=
  match src with
  | .imm v => .ok v s
  | .mem m => readByte (effective s m).1 s

/-- The page-cross cycle of a reading instruction (30_encoding.md R156). -/
def crossCycle (s : State) : Source → Nat
  | .imm _ => 0
  | .mem m => bit01 (effective s m).2

/-- A reading instruction: fetch the operand, then apply `f` to it (30_encoding.md R143, R170). -/
def reading (src : Source) (len base : Nat) (f : Byte → State → State) (s : State) : Result :=
  match fetchSource src (s.advance len) with
  | .fault e => .fault e
  | .ok v s' => .next ((f v s').addCycles (base + crossCycle (s.advance len) src))

/-- A store: one `MemWrite(ea, v)` and no read of `ea`; the count is fixed (40_load_store_transfer.md R200, 30_encoding.md R156). -/
def storing (m : Mode) (r : Reg8) (len base : Nat) (s : State) : Result :=
  match writeByte (effective (s.advance len) m).1 (s.getReg r) (s.advance len) with
  | .fault e => .fault e
  | .ok _ s' => .next (s'.addCycles base)

/-- A read-modify-write instruction: one read, then one write of the result; the count is fixed (42_shift_incdec.md R260). -/
def modifying (p : Place) (len base : Nat) (f : Flags → Byte → Byte × Flags) (s : State) : Result :=
  let s := s.advance len
  match p with
  | .acc =>
    let r := f s.cpu.p s.cpu.a
    .next (((s.setReg .a r.1).setFlags r.2).addCycles base)
  | .mem m =>
    match readByte (effective s m).1 s with
    | .fault e => .fault e
    | .ok v s1 =>
      let r := f s1.cpu.p v
      match writeByte (effective s m).1 r.1 s1 with
      | .fault e => .fault e
      | .ok _ s2 => .next ((s2.setFlags r.2).addCycles base)

/-- An implied instruction of one byte: only its effect and its cycles (30_encoding.md R144). -/
def implied (base : Nat) (f : State → State) (s : State) : Result := .next ((f (s.advance 1)).addCycles base)

/-- The target of a branch: PC, already past the branch, plus the displacement (30_encoding.md R155). -/
def branchTarget (next : Word) (off : Int) : Word := next + BitVec.ofInt 16 off

/-- A branch (43_control_flow.md R294): 2 cycles, one more if taken, one more if the target is on another page than the next
instruction. -/
def branching (cond : Bool) (off : Int) (s : State) : Result :=
  let s := s.advance 2
  let target := branchTarget s.cpu.pc off
  if cond then .next ((s.setPc target).addCycles (2 + (1 + bit01 (page target != page s.cpu.pc))))
  else .next (s.addCycles 2)

/-- Load a register and set N and Z (40_load_store_transfer.md R200). -/
def loadReg (r : Reg8) (v : Byte) (s : State) : State := (s.setReg r v).setFlags (s.cpu.p.setNZ v)

/-- An accumulator operation: result into A, flags (41_alu_logic_compare.md R230). -/
def accumulate (f : Flags → Byte → Byte → Byte × Flags) (m : Byte) (s : State) : State :=
  (s.setReg .a (f s.cpu.p s.cpu.a m).1).setFlags (f s.cpu.p s.cpu.a m).2

/-- A compare: flags only (41_alu_logic_compare.md R236 to R238). -/
def compareReg (r : Reg8) (m : Byte) (s : State) : State := s.setFlags (s.cpu.p.compare (s.getReg r) m)

/-- BIT: flags only (41_alu_logic_compare.md R239). -/
def bitTestA (m : Byte) (s : State) : State := s.setFlags (s.cpu.p.bitTest s.cpu.a m)

/-- A register step (42_shift_incdec.md R267 to R270). -/
def stepReg (r : Reg8) (f : Flags → Byte → Byte × Flags) (s : State) : State :=
  (s.setReg r (f s.cpu.p (s.getReg r)).1).setFlags (f s.cpu.p (s.getReg r)).2

end Sys2Proof.Machine
end

