-- ==== Sys2Proof/Machine/Alu.lean ====
section
/-! DEFINITION. Arithmetic, logic, compare and bit-test instructions (41_alu_logic_compare.md): one meaning per opcode, over the shapes of
Machine/Operands.lean. The two numbers of a meaning are its length (30_encoding.md R141) and its base cycle count (R168). -/

namespace Sys2Proof.Machine

/-- `ADC ($nn,X)` ($61, 6 cycles): R231, R153. -/
def execAdcIndx (zp : Byte) (s : State) : Result := reading (.mem (.indx zp)) 2 6 (accumulate Flags.adc) s

/-- `ADC $nn` ($65, 3 cycles): R231, R146. -/
def execAdcZp (zp : Byte) (s : State) : Result := reading (.mem (.zp zp)) 2 3 (accumulate Flags.adc) s

/-- `ADC #$nn` ($69, 2 cycles): R231, R145. -/
def execAdcImm (v : Byte) (s : State) : Result := reading (.imm v) 2 2 (accumulate Flags.adc) s

/-- `ADC $nnnn` ($6D, 4 cycles): R231, R149. -/
def execAdcAbs (addr : Word) (s : State) : Result := reading (.mem (.abs addr)) 3 4 (accumulate Flags.adc) s

/-- `ADC ($nn),Y` ($71, 5+p cycles): R231, R154. -/
def execAdcIndy (zp : Byte) (s : State) : Result := reading (.mem (.indy zp)) 2 5 (accumulate Flags.adc) s

/-- `ADC $nn,X` ($75, 4 cycles): R231, R147. -/
def execAdcZpx (zp : Byte) (s : State) : Result := reading (.mem (.zpx zp)) 2 4 (accumulate Flags.adc) s

/-- `ADC $nnnn,Y` ($79, 4+p cycles): R231, R151. -/
def execAdcAbsy (addr : Word) (s : State) : Result := reading (.mem (.absy addr)) 3 4 (accumulate Flags.adc) s

/-- `ADC $nnnn,X` ($7D, 4+p cycles): R231, R150. -/
def execAdcAbsx (addr : Word) (s : State) : Result := reading (.mem (.absx addr)) 3 4 (accumulate Flags.adc) s

/-- `SBC ($nn,X)` ($E1, 6 cycles): R232, R153. -/
def execSbcIndx (zp : Byte) (s : State) : Result := reading (.mem (.indx zp)) 2 6 (accumulate Flags.sbc) s

/-- `SBC $nn` ($E5, 3 cycles): R232, R146. -/
def execSbcZp (zp : Byte) (s : State) : Result := reading (.mem (.zp zp)) 2 3 (accumulate Flags.sbc) s

/-- `SBC #$nn` ($E9, 2 cycles): R232, R145. -/
def execSbcImm (v : Byte) (s : State) : Result := reading (.imm v) 2 2 (accumulate Flags.sbc) s

/-- `SBC $nnnn` ($ED, 4 cycles): R232, R149. -/
def execSbcAbs (addr : Word) (s : State) : Result := reading (.mem (.abs addr)) 3 4 (accumulate Flags.sbc) s

/-- `SBC ($nn),Y` ($F1, 5+p cycles): R232, R154. -/
def execSbcIndy (zp : Byte) (s : State) : Result := reading (.mem (.indy zp)) 2 5 (accumulate Flags.sbc) s

/-- `SBC $nn,X` ($F5, 4 cycles): R232, R147. -/
def execSbcZpx (zp : Byte) (s : State) : Result := reading (.mem (.zpx zp)) 2 4 (accumulate Flags.sbc) s

/-- `SBC $nnnn,Y` ($F9, 4+p cycles): R232, R151. -/
def execSbcAbsy (addr : Word) (s : State) : Result := reading (.mem (.absy addr)) 3 4 (accumulate Flags.sbc) s

/-- `SBC $nnnn,X` ($FD, 4+p cycles): R232, R150. -/
def execSbcAbsx (addr : Word) (s : State) : Result := reading (.mem (.absx addr)) 3 4 (accumulate Flags.sbc) s

/-- `AND ($nn,X)` ($21, 6 cycles): R233, R153. -/
def execAndIndx (zp : Byte) (s : State) : Result := reading (.mem (.indx zp)) 2 6 (accumulate (Flags.logic (· &&& ·))) s

/-- `AND $nn` ($25, 3 cycles): R233, R146. -/
def execAndZp (zp : Byte) (s : State) : Result := reading (.mem (.zp zp)) 2 3 (accumulate (Flags.logic (· &&& ·))) s

/-- `AND #$nn` ($29, 2 cycles): R233, R145. -/
def execAndImm (v : Byte) (s : State) : Result := reading (.imm v) 2 2 (accumulate (Flags.logic (· &&& ·))) s

/-- `AND $nnnn` ($2D, 4 cycles): R233, R149. -/
def execAndAbs (addr : Word) (s : State) : Result := reading (.mem (.abs addr)) 3 4 (accumulate (Flags.logic (· &&& ·))) s

/-- `AND ($nn),Y` ($31, 5+p cycles): R233, R154. -/
def execAndIndy (zp : Byte) (s : State) : Result := reading (.mem (.indy zp)) 2 5 (accumulate (Flags.logic (· &&& ·))) s

/-- `AND $nn,X` ($35, 4 cycles): R233, R147. -/
def execAndZpx (zp : Byte) (s : State) : Result := reading (.mem (.zpx zp)) 2 4 (accumulate (Flags.logic (· &&& ·))) s

/-- `AND $nnnn,Y` ($39, 4+p cycles): R233, R151. -/
def execAndAbsy (addr : Word) (s : State) : Result := reading (.mem (.absy addr)) 3 4 (accumulate (Flags.logic (· &&& ·))) s

/-- `AND $nnnn,X` ($3D, 4+p cycles): R233, R150. -/
def execAndAbsx (addr : Word) (s : State) : Result := reading (.mem (.absx addr)) 3 4 (accumulate (Flags.logic (· &&& ·))) s

/-- `ORA ($nn,X)` ($01, 6 cycles): R234, R153. -/
def execOraIndx (zp : Byte) (s : State) : Result := reading (.mem (.indx zp)) 2 6 (accumulate (Flags.logic (· ||| ·))) s

/-- `ORA $nn` ($05, 3 cycles): R234, R146. -/
def execOraZp (zp : Byte) (s : State) : Result := reading (.mem (.zp zp)) 2 3 (accumulate (Flags.logic (· ||| ·))) s

/-- `ORA #$nn` ($09, 2 cycles): R234, R145. -/
def execOraImm (v : Byte) (s : State) : Result := reading (.imm v) 2 2 (accumulate (Flags.logic (· ||| ·))) s

/-- `ORA $nnnn` ($0D, 4 cycles): R234, R149. -/
def execOraAbs (addr : Word) (s : State) : Result := reading (.mem (.abs addr)) 3 4 (accumulate (Flags.logic (· ||| ·))) s

/-- `ORA ($nn),Y` ($11, 5+p cycles): R234, R154. -/
def execOraIndy (zp : Byte) (s : State) : Result := reading (.mem (.indy zp)) 2 5 (accumulate (Flags.logic (· ||| ·))) s

/-- `ORA $nn,X` ($15, 4 cycles): R234, R147. -/
def execOraZpx (zp : Byte) (s : State) : Result := reading (.mem (.zpx zp)) 2 4 (accumulate (Flags.logic (· ||| ·))) s

/-- `ORA $nnnn,Y` ($19, 4+p cycles): R234, R151. -/
def execOraAbsy (addr : Word) (s : State) : Result := reading (.mem (.absy addr)) 3 4 (accumulate (Flags.logic (· ||| ·))) s

/-- `ORA $nnnn,X` ($1D, 4+p cycles): R234, R150. -/
def execOraAbsx (addr : Word) (s : State) : Result := reading (.mem (.absx addr)) 3 4 (accumulate (Flags.logic (· ||| ·))) s

/-- `EOR ($nn,X)` ($41, 6 cycles): R235, R153. -/
def execEorIndx (zp : Byte) (s : State) : Result := reading (.mem (.indx zp)) 2 6 (accumulate (Flags.logic (· ^^^ ·))) s

/-- `EOR $nn` ($45, 3 cycles): R235, R146. -/
def execEorZp (zp : Byte) (s : State) : Result := reading (.mem (.zp zp)) 2 3 (accumulate (Flags.logic (· ^^^ ·))) s

/-- `EOR #$nn` ($49, 2 cycles): R235, R145. -/
def execEorImm (v : Byte) (s : State) : Result := reading (.imm v) 2 2 (accumulate (Flags.logic (· ^^^ ·))) s

/-- `EOR $nnnn` ($4D, 4 cycles): R235, R149. -/
def execEorAbs (addr : Word) (s : State) : Result := reading (.mem (.abs addr)) 3 4 (accumulate (Flags.logic (· ^^^ ·))) s

/-- `EOR ($nn),Y` ($51, 5+p cycles): R235, R154. -/
def execEorIndy (zp : Byte) (s : State) : Result := reading (.mem (.indy zp)) 2 5 (accumulate (Flags.logic (· ^^^ ·))) s

/-- `EOR $nn,X` ($55, 4 cycles): R235, R147. -/
def execEorZpx (zp : Byte) (s : State) : Result := reading (.mem (.zpx zp)) 2 4 (accumulate (Flags.logic (· ^^^ ·))) s

/-- `EOR $nnnn,Y` ($59, 4+p cycles): R235, R151. -/
def execEorAbsy (addr : Word) (s : State) : Result := reading (.mem (.absy addr)) 3 4 (accumulate (Flags.logic (· ^^^ ·))) s

/-- `EOR $nnnn,X` ($5D, 4+p cycles): R235, R150. -/
def execEorAbsx (addr : Word) (s : State) : Result := reading (.mem (.absx addr)) 3 4 (accumulate (Flags.logic (· ^^^ ·))) s

/-- `CMP ($nn,X)` ($C1, 6 cycles): R236, R153. -/
def execCmpIndx (zp : Byte) (s : State) : Result := reading (.mem (.indx zp)) 2 6 (compareReg .a) s

/-- `CMP $nn` ($C5, 3 cycles): R236, R146. -/
def execCmpZp (zp : Byte) (s : State) : Result := reading (.mem (.zp zp)) 2 3 (compareReg .a) s

/-- `CMP #$nn` ($C9, 2 cycles): R236, R145. -/
def execCmpImm (v : Byte) (s : State) : Result := reading (.imm v) 2 2 (compareReg .a) s

/-- `CMP $nnnn` ($CD, 4 cycles): R236, R149. -/
def execCmpAbs (addr : Word) (s : State) : Result := reading (.mem (.abs addr)) 3 4 (compareReg .a) s

/-- `CMP ($nn),Y` ($D1, 5+p cycles): R236, R154. -/
def execCmpIndy (zp : Byte) (s : State) : Result := reading (.mem (.indy zp)) 2 5 (compareReg .a) s

/-- `CMP $nn,X` ($D5, 4 cycles): R236, R147. -/
def execCmpZpx (zp : Byte) (s : State) : Result := reading (.mem (.zpx zp)) 2 4 (compareReg .a) s

/-- `CMP $nnnn,Y` ($D9, 4+p cycles): R236, R151. -/
def execCmpAbsy (addr : Word) (s : State) : Result := reading (.mem (.absy addr)) 3 4 (compareReg .a) s

/-- `CMP $nnnn,X` ($DD, 4+p cycles): R236, R150. -/
def execCmpAbsx (addr : Word) (s : State) : Result := reading (.mem (.absx addr)) 3 4 (compareReg .a) s

/-- `CPX #$nn` ($E0, 2 cycles): R237, R145. -/
def execCpxImm (v : Byte) (s : State) : Result := reading (.imm v) 2 2 (compareReg .x) s

/-- `CPX $nn` ($E4, 3 cycles): R237, R146. -/
def execCpxZp (zp : Byte) (s : State) : Result := reading (.mem (.zp zp)) 2 3 (compareReg .x) s

/-- `CPX $nnnn` ($EC, 4 cycles): R237, R149. -/
def execCpxAbs (addr : Word) (s : State) : Result := reading (.mem (.abs addr)) 3 4 (compareReg .x) s

/-- `CPY #$nn` ($C0, 2 cycles): R238, R145. -/
def execCpyImm (v : Byte) (s : State) : Result := reading (.imm v) 2 2 (compareReg .y) s

/-- `CPY $nn` ($C4, 3 cycles): R238, R146. -/
def execCpyZp (zp : Byte) (s : State) : Result := reading (.mem (.zp zp)) 2 3 (compareReg .y) s

/-- `CPY $nnnn` ($CC, 4 cycles): R238, R149. -/
def execCpyAbs (addr : Word) (s : State) : Result := reading (.mem (.abs addr)) 3 4 (compareReg .y) s

/-- `BIT $nn` ($24, 3 cycles): R239, R146. -/
def execBitZp (zp : Byte) (s : State) : Result := reading (.mem (.zp zp)) 2 3 bitTestA s

/-- `BIT $nnnn` ($2C, 4 cycles): R239, R149. -/
def execBitAbs (addr : Word) (s : State) : Result := reading (.mem (.abs addr)) 3 4 bitTestA s

end Sys2Proof.Machine
end

