-- ==== Sys2Proof/Machine/Control.lean ====
section
/-! DEFINITION. Control-transfer instructions (43_control_flow.md): one meaning per opcode, over the shapes of
Machine/Operands.lean. The two numbers of a meaning are its length (30_encoding.md R141) and its base cycle count (R168). -/

namespace Sys2Proof.Machine

/-- The address of the high byte of an indirect target: it stays in the pointer's page under `JMP_IND_PAGE_WRAP` (30_encoding.md
R152, 43_control_flow.md R291). -/
def indirectHigh (pageWrap : Bool) (ptr : Word) : Word :=
  if pageWrap then page ptr ||| (ptr + 1 &&& 0x00FF) else ptr + 1

/-- JMP indirect: low byte, then high byte, then the jump (43_control_flow.md R291). -/
def jumpIndirect (ptr : Word) (s : State) : Result :=
  match readByte ptr s with
  | .fault e => .fault e
  | .ok lo s1 =>
    match readByte (indirectHigh s.params.jmpIndPageWrap ptr) s1 with
    | .fault e => .fault e
    | .ok hi s2 => .next ((s2.setPc (wordOf lo hi)).addCycles 5)

/-- JSR: push the address of its third byte, high byte first, then jump (43_control_flow.md R292). -/
def callSubroutine (target : Word) (s : State) : Result :=
  .next (((pushWord (s.cpu.pc - 1) s).setPc target).addCycles 6)

/-- `JMP $nnnn` ($4C, 3 cycles): R291, R149. -/
def execJmpAbs (addr : Word) (s : State) : Result := .next ((s.setPc addr).addCycles 3)

/-- `JMP ($nnnn)` ($6C, 5 cycles): R291, R152. -/
def execJmpInd (ptr : Word) (s : State) : Result := jumpIndirect ptr (s.advance 3)

/-- `JSR $nnnn` ($20, 6 cycles): R292, R149. -/
def execJsr (addr : Word) (s : State) : Result := callSubroutine addr (s.advance 3)

/-- `RTS` ($60, 6 cycles): R293, R144. -/
def execRts (s : State) : Result := implied 6 (fun s => (dropTop (dropTop s)).setPc (topWord s + 1)) s

/-- `BCC label` ($90, 2+b cycles): R295, R155. -/
def execBcc (off : Int) (s : State) : Result := branching (!s.cpu.p.c) off s

/-- `BCS label` ($B0, 2+b cycles): R296, R155. -/
def execBcs (off : Int) (s : State) : Result := branching s.cpu.p.c off s

/-- `BEQ label` ($F0, 2+b cycles): R297, R155. -/
def execBeq (off : Int) (s : State) : Result := branching s.cpu.p.z off s

/-- `BNE label` ($D0, 2+b cycles): R298, R155. -/
def execBne (off : Int) (s : State) : Result := branching (!s.cpu.p.z) off s

/-- `BMI label` ($30, 2+b cycles): R299, R155. -/
def execBmi (off : Int) (s : State) : Result := branching s.cpu.p.n off s

/-- `BPL label` ($10, 2+b cycles): R300, R155. -/
def execBpl (off : Int) (s : State) : Result := branching (!s.cpu.p.n) off s

/-- `BVC label` ($50, 2+b cycles): R301, R155. -/
def execBvc (off : Int) (s : State) : Result := branching (!s.cpu.p.v) off s

/-- `BVS label` ($70, 2+b cycles): R302, R155. -/
def execBvs (off : Int) (s : State) : Result := branching s.cpu.p.v off s

/-- `BRK` ($00, 7 cycles): R303, R144. -/
def execBrk (s : State) : Result := implied 7 (fun s => interruptEntry (s.cpu.pc + 1) true true irqVector s) s

/-- `RTI` ($40, 6 cycles): R304, R144. -/
def execRti (s : State) : Result := implied 6 interruptReturn s

end Sys2Proof.Machine
end

