-- ==== Sys2Proof/Machine/LoadStore.lean ====
section
/-! DEFINITION. Load, store and register-transfer instructions (40_load_store_transfer.md): one meaning per opcode, over the shapes of
Machine/Operands.lean. The two numbers of a meaning are its length (30_encoding.md R141) and its base cycle count (R168). -/

namespace Sys2Proof.Machine

/-- A transfer that sets N and Z (40_load_store_transfer.md R207 to R211). -/
def transfer (src dst : Reg8) (s : State) : State := loadReg dst (s.getReg src) s

/-- `LDA ($nn,X)` ($A1, 6 cycles): R201, R153. -/
def execLdaIndx (zp : Byte) (s : State) : Result := reading (.mem (.indx zp)) 2 6 (loadReg .a) s

/-- `LDA $nn` ($A5, 3 cycles): R201, R146. -/
def execLdaZp (zp : Byte) (s : State) : Result := reading (.mem (.zp zp)) 2 3 (loadReg .a) s

/-- `LDA #$nn` ($A9, 2 cycles): R201, R145. -/
def execLdaImm (v : Byte) (s : State) : Result := reading (.imm v) 2 2 (loadReg .a) s

/-- `LDA $nnnn` ($AD, 4 cycles): R201, R149. -/
def execLdaAbs (addr : Word) (s : State) : Result := reading (.mem (.abs addr)) 3 4 (loadReg .a) s

/-- `LDA ($nn),Y` ($B1, 5+p cycles): R201, R154. -/
def execLdaIndy (zp : Byte) (s : State) : Result := reading (.mem (.indy zp)) 2 5 (loadReg .a) s

/-- `LDA $nn,X` ($B5, 4 cycles): R201, R147. -/
def execLdaZpx (zp : Byte) (s : State) : Result := reading (.mem (.zpx zp)) 2 4 (loadReg .a) s

/-- `LDA $nnnn,Y` ($B9, 4+p cycles): R201, R151. -/
def execLdaAbsy (addr : Word) (s : State) : Result := reading (.mem (.absy addr)) 3 4 (loadReg .a) s

/-- `LDA $nnnn,X` ($BD, 4+p cycles): R201, R150. -/
def execLdaAbsx (addr : Word) (s : State) : Result := reading (.mem (.absx addr)) 3 4 (loadReg .a) s

/-- `LDX #$nn` ($A2, 2 cycles): R202, R145. -/
def execLdxImm (v : Byte) (s : State) : Result := reading (.imm v) 2 2 (loadReg .x) s

/-- `LDX $nn` ($A6, 3 cycles): R202, R146. -/
def execLdxZp (zp : Byte) (s : State) : Result := reading (.mem (.zp zp)) 2 3 (loadReg .x) s

/-- `LDX $nnnn` ($AE, 4 cycles): R202, R149. -/
def execLdxAbs (addr : Word) (s : State) : Result := reading (.mem (.abs addr)) 3 4 (loadReg .x) s

/-- `LDX $nn,Y` ($B6, 4 cycles): R202, R148. -/
def execLdxZpy (zp : Byte) (s : State) : Result := reading (.mem (.zpy zp)) 2 4 (loadReg .x) s

/-- `LDX $nnnn,Y` ($BE, 4+p cycles): R202, R151. -/
def execLdxAbsy (addr : Word) (s : State) : Result := reading (.mem (.absy addr)) 3 4 (loadReg .x) s

/-- `LDY #$nn` ($A0, 2 cycles): R203, R145. -/
def execLdyImm (v : Byte) (s : State) : Result := reading (.imm v) 2 2 (loadReg .y) s

/-- `LDY $nn` ($A4, 3 cycles): R203, R146. -/
def execLdyZp (zp : Byte) (s : State) : Result := reading (.mem (.zp zp)) 2 3 (loadReg .y) s

/-- `LDY $nnnn` ($AC, 4 cycles): R203, R149. -/
def execLdyAbs (addr : Word) (s : State) : Result := reading (.mem (.abs addr)) 3 4 (loadReg .y) s

/-- `LDY $nn,X` ($B4, 4 cycles): R203, R147. -/
def execLdyZpx (zp : Byte) (s : State) : Result := reading (.mem (.zpx zp)) 2 4 (loadReg .y) s

/-- `LDY $nnnn,X` ($BC, 4+p cycles): R203, R150. -/
def execLdyAbsx (addr : Word) (s : State) : Result := reading (.mem (.absx addr)) 3 4 (loadReg .y) s

/-- `STA ($nn,X)` ($81, 6 cycles): R204, R153. -/
def execStaIndx (zp : Byte) (s : State) : Result := storing (.indx zp) .a 2 6 s

/-- `STA $nn` ($85, 3 cycles): R204, R146. -/
def execStaZp (zp : Byte) (s : State) : Result := storing (.zp zp) .a 2 3 s

/-- `STA $nnnn` ($8D, 4 cycles): R204, R149. -/
def execStaAbs (addr : Word) (s : State) : Result := storing (.abs addr) .a 3 4 s

/-- `STA ($nn),Y` ($91, 6 cycles): R204, R154. -/
def execStaIndy (zp : Byte) (s : State) : Result := storing (.indy zp) .a 2 6 s

/-- `STA $nn,X` ($95, 4 cycles): R204, R147. -/
def execStaZpx (zp : Byte) (s : State) : Result := storing (.zpx zp) .a 2 4 s

/-- `STA $nnnn,Y` ($99, 5 cycles): R204, R151. -/
def execStaAbsy (addr : Word) (s : State) : Result := storing (.absy addr) .a 3 5 s

/-- `STA $nnnn,X` ($9D, 5 cycles): R204, R150. -/
def execStaAbsx (addr : Word) (s : State) : Result := storing (.absx addr) .a 3 5 s

/-- `STX $nn` ($86, 3 cycles): R205, R146. -/
def execStxZp (zp : Byte) (s : State) : Result := storing (.zp zp) .x 2 3 s

/-- `STX $nnnn` ($8E, 4 cycles): R205, R149. -/
def execStxAbs (addr : Word) (s : State) : Result := storing (.abs addr) .x 3 4 s

/-- `STX $nn,Y` ($96, 4 cycles): R205, R148. -/
def execStxZpy (zp : Byte) (s : State) : Result := storing (.zpy zp) .x 2 4 s

/-- `STY $nn` ($84, 3 cycles): R206, R146. -/
def execStyZp (zp : Byte) (s : State) : Result := storing (.zp zp) .y 2 3 s

/-- `STY $nnnn` ($8C, 4 cycles): R206, R149. -/
def execStyAbs (addr : Word) (s : State) : Result := storing (.abs addr) .y 3 4 s

/-- `STY $nn,X` ($94, 4 cycles): R206, R147. -/
def execStyZpx (zp : Byte) (s : State) : Result := storing (.zpx zp) .y 2 4 s

/-- `TAX` ($AA, 2 cycles): R207, R144. -/
def execTax (s : State) : Result := implied 2 (transfer .a .x) s

/-- `TAY` ($A8, 2 cycles): R208, R144. -/
def execTay (s : State) : Result := implied 2 (transfer .a .y) s

/-- `TXA` ($8A, 2 cycles): R209, R144. -/
def execTxa (s : State) : Result := implied 2 (transfer .x .a) s

/-- `TYA` ($98, 2 cycles): R210, R144. -/
def execTya (s : State) : Result := implied 2 (transfer .y .a) s

/-- `TSX` ($BA, 2 cycles): R211, R144. -/
def execTsx (s : State) : Result := implied 2 (transfer .sp .x) s

/-- `TXS` ($9A, 2 cycles): R212, R144. -/
def execTxs (s : State) : Result := implied 2 (fun s => s.setReg .sp s.cpu.x) s

end Sys2Proof.Machine
end

