-- ==== Sys2Proof/Machine/ShiftInc.lean ====
section
/-! DEFINITION. Shift, rotate, increment and decrement instructions (42_shift_incdec.md): one meaning per opcode, over the shapes of
Machine/Operands.lean. The two numbers of a meaning are its length (30_encoding.md R141) and its base cycle count (R168). -/

namespace Sys2Proof.Machine

/-- `ASL $nn` ($06, 5 cycles): R261, R146. -/
def execAslZp (zp : Byte) (s : State) : Result := modifying (.mem (.zp zp)) 2 5 Flags.asl s

/-- `ASL A` ($0A, 2 cycles): R261, R144. -/
def execAslAcc (s : State) : Result := modifying .acc 1 2 Flags.asl s

/-- `ASL $nnnn` ($0E, 6 cycles): R261, R149. -/
def execAslAbs (addr : Word) (s : State) : Result := modifying (.mem (.abs addr)) 3 6 Flags.asl s

/-- `ASL $nn,X` ($16, 6 cycles): R261, R147. -/
def execAslZpx (zp : Byte) (s : State) : Result := modifying (.mem (.zpx zp)) 2 6 Flags.asl s

/-- `ASL $nnnn,X` ($1E, 7 cycles): R261, R150. -/
def execAslAbsx (addr : Word) (s : State) : Result := modifying (.mem (.absx addr)) 3 7 Flags.asl s

/-- `LSR $nn` ($46, 5 cycles): R262, R146. -/
def execLsrZp (zp : Byte) (s : State) : Result := modifying (.mem (.zp zp)) 2 5 Flags.lsr s

/-- `LSR A` ($4A, 2 cycles): R262, R144. -/
def execLsrAcc (s : State) : Result := modifying .acc 1 2 Flags.lsr s

/-- `LSR $nnnn` ($4E, 6 cycles): R262, R149. -/
def execLsrAbs (addr : Word) (s : State) : Result := modifying (.mem (.abs addr)) 3 6 Flags.lsr s

/-- `LSR $nn,X` ($56, 6 cycles): R262, R147. -/
def execLsrZpx (zp : Byte) (s : State) : Result := modifying (.mem (.zpx zp)) 2 6 Flags.lsr s

/-- `LSR $nnnn,X` ($5E, 7 cycles): R262, R150. -/
def execLsrAbsx (addr : Word) (s : State) : Result := modifying (.mem (.absx addr)) 3 7 Flags.lsr s

/-- `ROL $nn` ($26, 5 cycles): R263, R146. -/
def execRolZp (zp : Byte) (s : State) : Result := modifying (.mem (.zp zp)) 2 5 Flags.rol s

/-- `ROL A` ($2A, 2 cycles): R263, R144. -/
def execRolAcc (s : State) : Result := modifying .acc 1 2 Flags.rol s

/-- `ROL $nnnn` ($2E, 6 cycles): R263, R149. -/
def execRolAbs (addr : Word) (s : State) : Result := modifying (.mem (.abs addr)) 3 6 Flags.rol s

/-- `ROL $nn,X` ($36, 6 cycles): R263, R147. -/
def execRolZpx (zp : Byte) (s : State) : Result := modifying (.mem (.zpx zp)) 2 6 Flags.rol s

/-- `ROL $nnnn,X` ($3E, 7 cycles): R263, R150. -/
def execRolAbsx (addr : Word) (s : State) : Result := modifying (.mem (.absx addr)) 3 7 Flags.rol s

/-- `ROR $nn` ($66, 5 cycles): R264, R146. -/
def execRorZp (zp : Byte) (s : State) : Result := modifying (.mem (.zp zp)) 2 5 Flags.ror s

/-- `ROR A` ($6A, 2 cycles): R264, R144. -/
def execRorAcc (s : State) : Result := modifying .acc 1 2 Flags.ror s

/-- `ROR $nnnn` ($6E, 6 cycles): R264, R149. -/
def execRorAbs (addr : Word) (s : State) : Result := modifying (.mem (.abs addr)) 3 6 Flags.ror s

/-- `ROR $nn,X` ($76, 6 cycles): R264, R147. -/
def execRorZpx (zp : Byte) (s : State) : Result := modifying (.mem (.zpx zp)) 2 6 Flags.ror s

/-- `ROR $nnnn,X` ($7E, 7 cycles): R264, R150. -/
def execRorAbsx (addr : Word) (s : State) : Result := modifying (.mem (.absx addr)) 3 7 Flags.ror s

/-- `INC $nn` ($E6, 5 cycles): R265, R146. -/
def execIncZp (zp : Byte) (s : State) : Result := modifying (.mem (.zp zp)) 2 5 Flags.inc s

/-- `INC $nnnn` ($EE, 6 cycles): R265, R149. -/
def execIncAbs (addr : Word) (s : State) : Result := modifying (.mem (.abs addr)) 3 6 Flags.inc s

/-- `INC $nn,X` ($F6, 6 cycles): R265, R147. -/
def execIncZpx (zp : Byte) (s : State) : Result := modifying (.mem (.zpx zp)) 2 6 Flags.inc s

/-- `INC $nnnn,X` ($FE, 7 cycles): R265, R150. -/
def execIncAbsx (addr : Word) (s : State) : Result := modifying (.mem (.absx addr)) 3 7 Flags.inc s

/-- `DEC $nn` ($C6, 5 cycles): R266, R146. -/
def execDecZp (zp : Byte) (s : State) : Result := modifying (.mem (.zp zp)) 2 5 Flags.dec s

/-- `DEC $nnnn` ($CE, 6 cycles): R266, R149. -/
def execDecAbs (addr : Word) (s : State) : Result := modifying (.mem (.abs addr)) 3 6 Flags.dec s

/-- `DEC $nn,X` ($D6, 6 cycles): R266, R147. -/
def execDecZpx (zp : Byte) (s : State) : Result := modifying (.mem (.zpx zp)) 2 6 Flags.dec s

/-- `DEC $nnnn,X` ($DE, 7 cycles): R266, R150. -/
def execDecAbsx (addr : Word) (s : State) : Result := modifying (.mem (.absx addr)) 3 7 Flags.dec s

/-- `INX` ($E8, 2 cycles): R267, R144. -/
def execInx (s : State) : Result := implied 2 (stepReg .x Flags.inc) s

/-- `INY` ($C8, 2 cycles): R268, R144. -/
def execIny (s : State) : Result := implied 2 (stepReg .y Flags.inc) s

/-- `DEX` ($CA, 2 cycles): R269, R144. -/
def execDex (s : State) : Result := implied 2 (stepReg .x Flags.dec) s

/-- `DEY` ($88, 2 cycles): R270, R144. -/
def execDey (s : State) : Result := implied 2 (stepReg .y Flags.dec) s

end Sys2Proof.Machine
end

