-- ==== Sys2Proof/Machine/StackFlags.lean ====
section
/-! DEFINITION. Stack, flag and no-operation instructions (44_stack_flags_nop.md): one meaning per opcode, over the shapes of
Machine/Operands.lean. The two numbers of a meaning are its length (30_encoding.md R141) and its base cycle count (R168). -/

namespace Sys2Proof.Machine

/-- `PHA` ($48, 3 cycles): R331, R144. -/
def execPha (s : State) : Result := implied 3 (fun s => push s.cpu.a s) s

/-- `PLA` ($68, 4 cycles): R332, R144. -/
def execPla (s : State) : Result := implied 4 (fun s => loadReg .a (topOfStack s) (dropTop s)) s

/-- `PHP` ($08, 3 cycles): R333, R144. -/
def execPhp (s : State) : Result := implied 3 (fun s => push (s.cpu.p.pack true) s) s

/-- `PLP` ($28, 4 cycles): R334, R144. -/
def execPlp (s : State) : Result := implied 4 (fun s => (dropTop s).setFlags (s.cpu.p.unpack (topOfStack s))) s

/-- `CLC` ($18, 2 cycles): R335, R144. -/
def execClc (s : State) : Result := implied 2 (fun s => s.setFlags { s.cpu.p with c := false }) s

/-- `SEC` ($38, 2 cycles): R336, R144. -/
def execSec (s : State) : Result := implied 2 (fun s => s.setFlags { s.cpu.p with c := true }) s

/-- `CLI` ($58, 2 cycles): R337, R144. -/
def execCli (s : State) : Result := implied 2 (fun s => s.setFlags { s.cpu.p with i := false }) s

/-- `SEI` ($78, 2 cycles): R338, R144. -/
def execSei (s : State) : Result := implied 2 (fun s => s.setFlags { s.cpu.p with i := true }) s

/-- `CLV` ($B8, 2 cycles): R339, R144. -/
def execClv (s : State) : Result := implied 2 (fun s => s.setFlags { s.cpu.p with v := false }) s

/-- `CLD` ($D8, 2 cycles): R340, R144. -/
def execCld (s : State) : Result := implied 2 (fun s => s.setFlags { s.cpu.p with d := false }) s

/-- `SED` ($F8, 2 cycles): R341, R144. -/
def execSed (s : State) : Result := implied 2 (fun s => s.setFlags { s.cpu.p with d := true }) s

/-- `NOP` ($EA, 2 cycles): R342, R144. -/
def execNop (s : State) : Result := implied 2 (fun s => s) s

end Sys2Proof.Machine
end

