-- ==== Sys2Proof/Machine/Render.lean ====
section
/-! DEFINITION. One `PPU.cycle` (50_ppu.md R420 to R454): timed events, background fetch and the loopy counters, sprites, pixels. -/

namespace Sys2Proof.Machine

/-! ## The loopy counters -/

/-- Coarse-X increment (50_ppu.md R432). -/
def coarseXIncrement (v : BitVec 15) : BitVec 15 :=
  if v &&& 0x001F = 31 then (v &&& 0x7FE0) ^^^ 0x0400 else v + 1

/-- Y increment (50_ppu.md R433). -/
def yIncrement (v : BitVec 15) : BitVec 15 :=
  if v &&& 0x7000 ≠ 0x7000 then v + 0x1000
  else
    let v := v &&& 0x0FFF
    let cy := (v >>> 5) &&& 0x1F
    if cy = 29 then (v ^^^ 0x0800) &&& 0x7C1F
    else if cy = 31 then v &&& 0x7C1F
    else (v &&& 0x7C1F) ||| ((cy + 1) <<< 5)

/-- Cycle 257's copy of the horizontal scroll bits (50_ppu.md R434). -/
def copyHorizontal (t v : BitVec 15) : BitVec 15 := (v &&& 0x7BE0) ||| (t &&& 0x041F)

/-- Cycles 280 to 304's copy of the vertical scroll bits (50_ppu.md R435). -/
def copyVertical (t v : BitVec 15) : BitVec 15 := (v &&& 0x041F) ||| (t &&& 0x7BE0)

/-! ## Background -/

/-- `FETCH_CYCLES` (50_ppu.md R430). -/
def isFetchCycle (c : Nat) : Bool := (c % 8 == 0 && decide (8 ≤ c) && decide (c ≤ 256)) || c == 328 || c == 336

/-- The nametable address of a fetch (50_ppu.md R431). -/
def tileAddress (v : BitVec 15) : BitVec 15 := 0x2000 ||| (v &&& 0x0FFF)

/-- The attribute address of a fetch (50_ppu.md R431). -/
def attributeAddress (v : BitVec 15) : BitVec 15 :=
  0x23C0 ||| (v &&& 0x0C00) ||| ((v >>> 4) &&& 0x38) ||| ((v >>> 2) &&& 0x07)

/-- The attribute byte's shift for the quadrant (50_ppu.md R431). -/
def quadrantShift (v : BitVec 15) : Nat := (((v >>> 4) &&& 4) ||| (v &&& 2)).toNat

/-- Fine Y (50_ppu.md R431). -/
def fineY (v : BitVec 15) : Nat := ((v >>> 12) &&& 7).toNat

/-- The two pattern bits of column `col`, column 0 leftmost (50_ppu.md R431, R442). -/
def patternBits (lo hi : Byte) (col : Nat) : Nat := bit01 (hi.getLsbD (7 - col)) * 2 + bit01 (lo.getLsbD (7 - col))

/-- One entry of the background queue: palette number in bits 3:2, pattern value in bits 1:0 (50_ppu.md R431). -/
def queueEntry (pal : Nat) (lo hi : Byte) (col : Nat) : BitVec 4 := BitVec.ofNat 4 (pal * 4 + patternBits lo hi col)

/-- Shift the queue by one tile and append eight entries (50_ppu.md R431). -/
def shiftQueue (q : Vector (BitVec 4) 16) (f : Nat → BitVec 4) : Vector (BitVec 4) 16 :=
  #v[q[8], q[9], q[10], q[11], q[12], q[13], q[14], q[15], f 0, f 1, f 2, f 3, f 4, f 5, f 6, f 7]

/-- One tile fetch-and-shift, with its coarse-X increment (50_ppu.md R431). -/
def fetchTile (s : State) : Ppu :=
  let v := s.ppu.v
  let tile := ppuRead s (tileAddress v).toNat
  let attr := ppuRead s (attributeAddress v).toNat
  let pal := (attr >>> quadrantShift v).toNat % 4
  let pa := (if s.ppu.ctrl.getLsbD 4 then 0x1000 else 0) + tile.toNat * 16 + fineY v
  let lo := ppuRead s pa
  let hi := ppuRead s (pa + 8)
  { s.ppu with bgq := shiftQueue s.ppu.bgq (queueEntry pal lo hi), v := coarseXIncrement v }

/-! ## Sprites -/

/-- The sprite height h (50_ppu.md R440, R442). -/
def Ppu.spriteHeight (p : Ppu) : Nat := if p.ctrl.getLsbD 5 then 16 else 8

/-- Byte `k` of sprite `i` in the snapshot (50_ppu.md R441). -/
def Ppu.spriteByte (p : Ppu) (i k : Nat) : Byte := p.sprSnap.read (4 * i + k)

/-- The rows of sprite `i` include scanline `y`: 0 ≤ y − (Y + 1) < h (50_ppu.md R440, R443). -/
def Ppu.spriteCovers (p : Ppu) (i y : Nat) : Bool :=
  decide ((p.spriteByte i 0).toNat + 1 ≤ y) && decide (y < (p.spriteByte i 0).toNat + 1 + p.spriteHeight)

/-- `spr_count[y]` (50_ppu.md R440). -/
def Ppu.countSprites (p : Ppu) (y : Nat) : Byte := BitVec.ofNat 8 ((List.range 64).countP (fun i => p.spriteCovers i y))

/-- Sprite pre-evaluation (50_ppu.md R440). -/
def Ppu.preEvaluate (p : Ppu) : Ppu :=
  let p := { p with sprSnap := p.oam }
  { p with sprCount := Memory.tabulate p.countSprites 0 240 }

/-- An opaque sprite pixel: its colour index and whether it stands behind the background (50_ppu.md R442). -/
structure SpritePixel where
  index  : Nat
  behind : Bool
  deriving DecidableEq, Repr

/-- The pattern address of sprite row `row` (50_ppu.md R442). -/
def Ppu.spritePattern (p : Ppu) (tile : Byte) (row : Nat) : Nat :=
  if p.ctrl.getLsbD 5 then
    bit01 (tile.getLsbD 0) * 0x1000 + ((tile &&& 0xFE).toNat + (if 8 ≤ row then 1 else 0)) * 16 + row % 8
  else (if p.ctrl.getLsbD 3 then 0x1000 else 0) + tile.toNat * 16 + row

/-- The sprite pixel function `spr(i, x, y)` (50_ppu.md R442). -/
def spritePixel (s : State) (i x y : Nat) : Option SpritePixel :=
  let p := s.ppu
  let x0 := (p.spriteByte i 3).toNat
  let attr := p.spriteByte i 2
  if p.spriteCovers i y ∧ x0 ≤ x ∧ x < x0 + 8 then
    let row0 := y - ((p.spriteByte i 0).toNat + 1)
    let row := if attr.getLsbD 7 then p.spriteHeight - 1 - row0 else row0
    let col := if attr.getLsbD 6 then 7 - (x - x0) else x - x0
    let pa := p.spritePattern (p.spriteByte i 1) row
    let px := patternBits (ppuRead s pa) (ppuRead s (pa + 8)) col
    if px = 0 then none else some ⟨0x10 + attr.toNat % 4 * 4 + px, attr.getLsbD 5⟩
  else none

/-- The candidates at scanline `y` under `SPRITE_LIMIT` (50_ppu.md R443). -/
def spriteCandidates (s : State) (y : Nat) : List Nat :=
  match s.params.spriteLimit with
  | .unlimited => List.range 64
  | .eight => ((List.range 64).filter (fun i => s.ppu.spriteCovers i y)).take 8

/-- Sprite selection: the smallest candidate with an opaque pixel (50_ppu.md R443). -/
def selectSprite (s : State) (x y : Nat) : Option SpritePixel := (spriteCandidates s y).findSome? (fun i => spritePixel s i x y)

/-! ## Pixel output -/

/-- The background pixel at column `x`: `none` is transparent (50_ppu.md R450). -/
def Ppu.backgroundPixel (p : Ppu) (x : Nat) : Option Nat :=
  if p.mask.getLsbD 3 = false ∨ (p.mask.getLsbD 1 = false ∧ x < 8) then none
  else
    let q := (p.bgq.getD (x % 8 + p.x.toNat) 0).toNat
    if q % 4 = 0 then none else some q

/-- Sprites are shown at column `x` (50_ppu.md R451, R453). -/
def Ppu.showsSprites (p : Ppu) (x : Nat) : Bool := p.mask.getLsbD 4 && (p.mask.getLsbD 2 || decide (8 ≤ x))

/-- The priority decision (50_ppu.md R451). -/
def priority (bg : Option Nat) (sp : Option SpritePixel) : Nat :=
  match bg, sp with
  | none, none => 0
  | none, some q => q.index
  | some b, none => b
  | some b, some q => if q.behind then b else q.index

/-- Visible-pixel output at (x, y), with the sprite-0 test (50_ppu.md R451, R453, R454). -/
def outputPixel (x y : Nat) (s : State) : State :=
  let bg := s.ppu.backgroundPixel x
  let sp := if s.ppu.showsSprites x then selectSprite s x y else none
  let hit := bg.isSome && s.ppu.showsSprites x && (spritePixel s 0 x y).isSome
  let colour := s.ppu.palette.read (paletteIndex (priority bg sp)) &&& 0x3F
  s.withPpu { s.ppu with sprite0Hit := s.ppu.sprite0Hit || hit, frame := s.ppu.frame.write (y * 256 + x) colour }

/-! ## The cycle state machine -/

/-- Step 1 (50_ppu.md R422). -/
def clearFlags (s : State) : State :=
  if s.ppu.scanline = 261 ∧ s.ppu.cycle = 1 then
    s.withPpu { s.ppu with vblank := false, sprite0Hit := false, spriteOverflow := false }
  else s

/-- Step 2: vblank, and the NMI input if enabled (50_ppu.md R423). -/
def startVblank (s : State) : State :=
  if s.ppu.scanline = 241 ∧ s.ppu.cycle = 1 then
    let s := s.withPpu { s.ppu with vblank := true }
    if s.ppu.ctrl.getLsbD 7 then triggerNmi s else s
  else s

/-- Step 3 (50_ppu.md R420, R451). -/
def visiblePixel (s : State) : State :=
  if s.ppu.scanline ≤ 239 ∧ 1 ≤ s.ppu.cycle ∧ s.ppu.cycle ≤ 256 then outputPixel (s.ppu.cycle - 1) s.ppu.scanline s else s

/-- `render_line` (50_ppu.md R402). -/
def Ppu.renderLine (p : Ppu) : Bool := decide (p.scanline ≤ 239) || decide (p.scanline = 261)

/-- Step 4: fetch, Y increment, horizontal and vertical copies (50_ppu.md R420). -/
def backgroundWork (s : State) : State :=
  if s.ppu.rendering && s.ppu.renderLine then
    let c := s.ppu.cycle
    let p := if isFetchCycle c then fetchTile s else s.ppu
    let p := if c = 256 then { p with v := yIncrement p.v } else p
    let p := if c = 257 then { p with v := copyHorizontal p.t p.v } else p
    let p := if p.scanline = 261 ∧ 280 ≤ c ∧ c ≤ 304 then { p with v := copyVertical p.t p.v } else p
    s.withPpu p
  else s

/-- Step 5 (50_ppu.md R440). -/
def spriteWork (s : State) : State :=
  if s.ppu.scanline = 261 ∧ 280 ≤ s.ppu.cycle ∧ s.ppu.cycle ≤ 304 then s.withPpu s.ppu.preEvaluate else s

/-- Step 6: advance the (scanline, cycle) pair (50_ppu.md R421). -/
def Ppu.advance (p : Ppu) : Ppu :=
  if p.cycle + 1 = 341 then
    { p with cycle := 0, scanline := if p.scanline + 1 = 262 then 0 else p.scanline + 1 }
  else { p with cycle := p.cycle + 1 }

/-- `PPU.cycle(frame_sink, cpu)` (50_ppu.md R420). -/
def ppuCycle (s : State) : State :=
  let s := spriteWork (backgroundWork (visiblePixel (startVblank (clearFlags s))))
  s.withPpu s.ppu.advance

end Sys2Proof.Machine
end

