-- ==== Sys2Proof/WellFormed.lean ====
section
/-! DEFINITION. Which terms are legal: an instruction whose branch displacement fits its operand byte (30_encoding.md R155), a ROM
image the core may be built from (53_scheduler_io.md R631), and parameters whose memories are in canonical form and whose
interrupt entry takes time (D8). -/

namespace Sys2Proof

/-- The range of `sext_8(b1)`: −128 to +127 (30_encoding.md R155). -/
def inBranchRange (off : Int) : Bool := decide (-128 ≤ off) && decide (off ≤ 127)

/-- A branch's displacement is in range; every other operand is legal at every value of its byte or word. -/
def Instr.wellFormed : Instr → Bool
  | .bpl off | .bmi off | .bvc off | .bvs off | .bcc off | .bcs off | .bne off | .beq off => inBranchRange off
  | _ => true

/-- The ROM image contract (53_scheduler_io.md R631): at least one PRG page (52_mappers.md R576), mapper id 0 to 255, a trainer of 512
bytes, and page contents inside the pages counted. -/
def RomImage.wellFormed (r : RomImage) : Bool :=
  decide (1 ≤ r.prgPages) && decide (r.mapperId ≤ 255)
    && (match r.trainer with | none => true | some bs => decide (bs.length = 512))
    && r.prg.wf (r.prgPages * 0x4000) && r.chr.wf (r.chrPages * 0x2000)

/-- The parameters' memories are canonical and of the size they fill, and an interrupt entry takes at least one cycle: with 0
"`execute()` would return without progress" (D8). -/
def Params.wellFormed (p : Params) : Bool :=
  p.ramInit.wf 0x800 && p.cartRamInit.wf 0x2000 && p.chrRamInit.wf 0x2000 && decide (1 ≤ p.intCycles)

end Sys2Proof
end

