-- ==== Sys2Proof/Machine/Reset.lean ====
section
/-! DEFINITION. Power-up and reset (70_reset_and_hazards.md R750 to R752). -/

namespace Sys2Proof.Machine

/-- The scheme of a mapper id (52_mappers.md R572). -/
def schemeOf (ids : List (Nat × Scheme)) (id : Nat) : Option Scheme := (ids.find? (fun e => e.1 == id)).map (·.2)

/-- `mirror` at power-up: 0 if the image is vertical, 1 if horizontal (10_state.md R45, 52_mappers.md R594). DESIGN CHOICE: 0 for the
two other flags, where the spec names no value (log 10). -/
def initialMirrorBit (m : Mirroring) : Bool := decide (m = .horizontal)

/-- Mapper registers at power-up (10_state.md R45, 52_mappers.md R585, R598, R614). -/
def mapperPowerUp (m : Mirroring) : Scheme → Mapper
  | .fixed => .fixed
  | .bank16 => .bank16 0
  | .eightReg =>
    .eightReg { bankSelect := 0, r := #v[0, 2, 4, 5, 6, 7, 0, 1], mirror := initialMirrorBit m, ramProtect := 0, irqLatch := 0,
                irqCounter := 0, irqReload := false, irqEnabled := false, irqLine := false }
  | .dualA => .dual { variantA := true, prg0 := 0, prg1 := 0, mirror := initialMirrorBit m, chrLo := Vector.replicate 8 0, chrHi := Vector.replicate 8 0 }
  | .dualB => .dual { variantA := false, prg0 := 0, prg1 := 0, mirror := initialMirrorBit m, chrLo := Vector.replicate 8 0, chrHi := Vector.replicate 8 0 }

/-- `irq_sources` as `install` builds it (52_mappers.md R574). -/
def sourcesOf : Scheme → List IrqSource
  | .eightReg => [.apu, .mapper]
  | _ => [.apu]

/-- Cartridge RAM at power-up: `RAM_INIT`, then the trainer at $1000 (10_state.md R33). -/
def cartRamPowerUp (rom : RomImage) (p : Params) : Memory :=
  match rom.trainer with
  | some bs => if p.trainerInstall then p.cartRamInit.writeList 0x1000 bs else p.cartRamInit
  | none => p.cartRamInit

/-- `CPU.reset()` (70_reset_and_hazards.md R751). -/
def cpuReset (s : State) : State :=
  let p := s.params
  { s with cpu :=
      { a := p.resetA, x := p.resetX, y := p.resetY, sp := p.resetSP, pc := vectorAt s resetVector, p := Flags.ofResetByte p.resetP,
        cycles := s.cpu.cycles + p.resetCycles, nmiPending := false, nmiDefer := false, nmiAlt := false } }

/-- Everything of power-up before the CPU's reset (70_reset_and_hazards.md R750 steps 2 to 7). -/
def beforeReset (rom : RomImage) (p : Params) (scheme : Scheme) : State :=
  { cpu := { a := 0, x := 0, y := 0, sp := 0, pc := 0, p := Flags.ofResetByte 0, cycles := 0,
             nmiPending := false, nmiDefer := false, nmiAlt := false }
    ram := p.ramInit
    cartRam := cartRamPowerUp rom p
    chrRam := p.chrRamInit
    ppu := Ppu.powerUp rom.mirroring
    apu := Apu.powerUp
    mapper := mapperPowerUp rom.mirroring scheme
    pads := Controllers.powerUp
    synced := 0
    prevVblank := false
    fault := none
    sinks := Sinks.none
    draws := 0
    hostQueue := []
    irqSources := sourcesOf scheme
    rom := rom
    params := p }

/-- Power-up from an image and the parameters: the first runnable state, or a refusal (70_reset_and_hazards.md R750, 52_mappers.md R572). -/
def powerUp (rom : RomImage) (p : Params) : Result :=
  if rom.wellFormed then
    match schemeOf p.mapperIds rom.mapperId with
    | none => .refused (.unsupportedMapper rom.mapperId)
    | some scheme => .next (cpuReset (beforeReset rom p scheme))
  else .refused .malformedImage

/-- The console's reset button: `cpu.reset()`, then `apu.power_up()`; all else keeps its value (70_reset_and_hazards.md R752). -/
def systemReset (s : State) : State := { cpuReset s with apu := Apu.powerUp }

end Sys2Proof.Machine
end

