-- ==== Sys2Proof/Machine/Scheduler.lean ====
section
/-! DEFINITION. The Scheduler's parts: fetch and decode, the CPU's `execute()` with its interrupt check, the fan-out of one elapsed
cycle to the devices, the host's turn, and the placing of a program. Machine/Step.lean only puts them together. -/

namespace Sys2Proof.Machine

/-! ## One instruction -/

/-- Read `n` bytes at ascending addresses from `a` (30_encoding.md R143). -/
def fetchBytes : Nat → Word → State → Access (List Byte)
  | 0, _, s => .ok [] s
  | n + 1, a, s =>
    match readByte a s with
    | .fault f => .fault f
    | .ok b s1 =>
      match fetchBytes n (a + 1) s1 with
      | .fault f => .fault f
      | .ok bs s2 => .ok (b :: bs) s2

/-- Fetch and decode the instruction at PC: the opcode, then exactly the operand bytes its row has (30_encoding.md R143, R160). -/
def fetch (s : State) : Access Instr :=
  match readByte s.cpu.pc s with
  | .fault f => .fault f
  | .ok op s1 =>
    match opForm op with
    | none => .fault (.illegalOpcode s.cpu.pc op)
    | some form =>
      match fetchBytes (form.length - 1) (s.cpu.pc + 1) s1 with
      | .fault f => .fault f
      | .ok bs s2 =>
        match decode (op :: bs) with
        | .ok (i, _) => .ok i s2
        | .error _ => .fault (.illegalOpcode s.cpu.pc op)

/-- One instruction (30_encoding.md R143). -/
def runInstruction (s : State) : Result :=
  match fetch s with
  | .fault f => .fault f
  | .ok i s' => exec i s'

/-! ## `execute()` -/

/-- One registered source asserts (60_exceptions.md R711). -/
def sourceAsserts (s : State) : IrqSource → Bool
  | .apu => s.apu.asserts
  | .mapper => s.mapper.asserts

/-- `irq_ready` (60_exceptions.md R710, R711). -/
def irqReady (s : State) : Bool := !s.cpu.p.i && s.irqSources.any (sourceAsserts s)

/-- `nmi_ready` (60_exceptions.md R710, R720). -/
def nmiReady (s : State) : Bool := s.cpu.nmiPending && !s.cpu.nmiDefer

/-- A deferral lasts exactly one call (60_exceptions.md R710). -/
def endDeferral (s : State) : State :=
  { s with cpu := { s.cpu with nmiDefer := s.cpu.nmiDefer && !s.cpu.nmiPending } }

/-- `CPU.execute()`: exactly one of an IRQ entry, an NMI entry, one instruction (60_exceptions.md R710, R719). -/
def execute (s : State) : Result :=
  let irq := irqReady s
  let nmi := nmiReady s
  let s := endDeferral s
  match s.params.intCheckOrder with
  | .irqFirst => if irq then .next (serviceIrq s) else if nmi then .next (serviceNmi s) else runInstruction s
  | .nmiFirst => if nmi then .next (serviceNmi s) else if irq then .next (serviceIrq s) else runInstruction s

/-! ## The fan-out -/

/-- `frame_ready_check()` (53_scheduler_io.md R634). -/
def frameReadyCheck (s : State) : State :=
  let now := s.ppu.vblank
  let s := if now && !s.prevVblank then
      { s with sinks := { s.sinks with framesOut := s.sinks.framesOut + 1, lastFrame := s.ppu.frame } }
    else s
  { s with prevVblank := now }

/-- One PPU cycle of a fan-out, with its check (53_scheduler_io.md R632). -/
def ppuTick (s : State) : State := frameReadyCheck (ppuCycle s)

/-- `fan_out()`: mapper, APU, PPU three times, then one more cycle is synchronised (53_scheduler_io.md R632). -/
def fanOut (s : State) : Result :=
  match apuCycle (mapperCycle s) with
  | .fault f => .fault f
  | .ok _ s' =>
    let s'' := ppuTick (ppuTick (ppuTick s'))
    .next { s'' with synced := s''.synced + 1 }

/-! ## The host's turn (log 6) -/

/-- Set one controller's levels (53_scheduler_io.md R660). -/
def setButtons (second : Bool) (levels : Buttons) (s : State) : State :=
  if second then { s with pads := { s.pads with buttons1 := levels } } else { s with pads := { s.pads with buttons0 := levels } }

/-- What happens between two iterations: the host's next event, or the CPU's `execute()` (00_scope.md R7, 53_scheduler_io.md R651, R660;
70_reset_and_hazards.md R752). -/
def boundary (s : State) : Result :=
  match s.hostQueue with
  | [] => execute s
  | .proceed :: rest => execute { s with hostQueue := rest }
  | .buttons second levels :: rest => .next (setButtons second levels { s with hostQueue := rest })
  | .reset :: rest => .next (systemReset { s with hostQueue := rest })
  | .pause :: rest => .next { s with hostQueue := rest }

/-- The state a faulted step leaves behind: the latch set and nothing else committed (60_exceptions.md R701). -/
def latchFault (f : Fault) (s : State) : State := { s with fault := some f }

/-! ## Placing a program (log 3) -/

/-- Put one byte where a read of this address finds it, if that is a byte of memory, ROM included. -/
def placeByte (a : Word) (b : Byte) (s : State) : State :=
  match AddressSpace.readTarget (cpuSpace s) a.toNat with
  | some (.cell .prg i) => { s with rom := { s.rom with prg := s.rom.prg.write i b } }
  | some (.cell st i) => s.setCell st i b
  | _ => s

/-- Place bytes at ascending addresses. -/
def placeBytes : Word → List Byte → State → State
  | _, [], s => s
  | a, b :: bs, s => placeBytes (a + 1) bs (placeByte a b s)

/-- The three bytes at PC are memory. -/
def pcInMemory (s : State) : Bool :=
  (peek s s.cpu.pc).isSome && (peek s (s.cpu.pc + 1)).isSome && (peek s (s.cpu.pc + 2)).isSome

/-- Make the next Scheduler step the fetch of an instruction from memory: the devices in step with the CPU, no fault latched, no host
event before it, no interrupt ready, and PC at memory (at $0000 if it stood at a device register or an unmapped address). -/
def readyToFetch (s : State) : State :=
  let s := { s with fault := none, hostQueue := [], synced := s.cpu.cycles,
                    cpu := { s.cpu with nmiPending := false }
                    irqSources := if irqReady s then [] else s.irqSources }
  if pcInMemory s then s else s.setPc 0

end Sys2Proof.Machine
end

