-- ==== Sys2Proof/Machine/Step.lean ====
section
/-! DEFINITION. One step of the machine: one Scheduler step (53_scheduler_io.md R632). -/

namespace Sys2Proof.Machine

/-- `Scheduler.step()` (53_scheduler_io.md R632): no step after a fault (60_exceptions.md R701); the CPU (or the host before it) when the
devices have caught up, else one fan-out. -/
def step (s : State) : Host.Outcome State Fault Refusal :=
  match s.fault with
  | some f => .fault f
  | none => if s.synced = s.cpu.cycles then boundary s else fanOut s

/-- The state with a table word's bytes stored where `step` fetches its next instruction (log 3). -/
def State.withFetchWord (s : State) (nbits w : Nat) : State :=
  placeBytes (readyToFetch s).cpu.pc (tableBytes nbits w) (readyToFetch s)

end Sys2Proof.Machine
end

