-- ==== Sys2Proof/Safety.lean ====
section
/-! DEFINITION. The terms claims are stated in: which addresses exist, which accesses an instruction may make, the instruction
tables (operand form, length, base cycles, copied from spec/opcode_table.json, not from the meanings), and the invariants of
a run. -/

namespace Sys2Proof.Machine

/-! ## Addresses -/

/-- An address a region of the CPU space covers: not $4018 to $5FFF, unless `UNLISTED_IO = zero` (20_memory.md R90, R94). -/
def Mapped (s : State) (a : Word) : Prop := s.params.unlistedIo = .zero ∨ a.toNat < 0x4018 ∨ 0x6000 ≤ a.toNat

/-- Internal RAM or cartridge RAM: an address whose byte a store changes (20_memory.md R91, R95). -/
def IsRam (a : Word) : Prop := a.toNat < 0x2000 ∨ (0x6000 ≤ a.toNat ∧ a.toNat < 0x8000)

/-- Two addresses of the same byte of RAM: equal, or in two of internal RAM's four images (20_memory.md R91). -/
def SameByte (a a' : Word) : Prop := a = a' ∨ (a.toNat < 0x2000 ∧ a'.toNat < 0x2000 ∧ a.toNat % 0x800 = a'.toNat % 0x800)

/-- A store of `v` at `a` reaches a region, and so does every read of the OAM DMA it may start (20_memory.md R90, R94;
53_scheduler_io.md R640). -/
def Storable (s : State) (a : Word) (v : Byte) : Prop :=
  Mapped s a ∧ (a = 0x4014 → ∀ k : Byte, Mapped s (wordOf k v))

/-- The operand of a reading instruction is an immediate byte or lies at a mapped address. -/
def Readable (s : State) : Source → Prop
  | .imm _ => True
  | .mem m => Mapped s (effective s m).1

/-- The operand of a reading instruction as a byte of memory: the immediate byte, or the byte at the effective address where that is
memory and no device register. -/
def memoryOperand (s : State) : Source → Option Byte
  | .imm v => some v
  | .mem m => peek s (effective s m).1

/-- N and Z of a value, every other flag kept (00_scope.md R13). -/
def nzOf (p : Flags) (v : Byte) : Flags := ⟨decide (128 ≤ v.toNat), p.v, p.b, p.d, p.i, decide (v = 0), p.c⟩

/-! ## The instruction tables -/

/-- The mnemonics that read an operand (40_load_store_transfer.md, 41_alu_logic_compare.md). -/
inductive ReadOp where
  | opLda | opLdx | opLdy | opAdc | opSbc | opAnd | opOra | opEor | opCmp | opCpx | opCpy | opBit
  deriving DecidableEq, Repr

/-- Mnemonic, operand, length in bytes and base cycles of every reading instruction (spec/opcode_table.json). -/
def readForm : Instr → Option (ReadOp × Source × Nat × Nat)
  | .ldaIndx zp => some (.opLda, .mem (.indx zp), 2, 6)
  | .ldaZp zp => some (.opLda, .mem (.zp zp), 2, 3)
  | .ldaImm v => some (.opLda, .imm v, 2, 2)
  | .ldaAbs addr => some (.opLda, .mem (.abs addr), 3, 4)
  | .ldaIndy zp => some (.opLda, .mem (.indy zp), 2, 5)
  | .ldaZpx zp => some (.opLda, .mem (.zpx zp), 2, 4)
  | .ldaAbsy addr => some (.opLda, .mem (.absy addr), 3, 4)
  | .ldaAbsx addr => some (.opLda, .mem (.absx addr), 3, 4)
  | .ldxImm v => some (.opLdx, .imm v, 2, 2)
  | .ldxZp zp => some (.opLdx, .mem (.zp zp), 2, 3)
  | .ldxAbs addr => some (.opLdx, .mem (.abs addr), 3, 4)
  | .ldxZpy zp => some (.opLdx, .mem (.zpy zp), 2, 4)
  | .ldxAbsy addr => some (.opLdx, .mem (.absy addr), 3, 4)
  | .ldyImm v => some (.opLdy, .imm v, 2, 2)
  | .ldyZp zp => some (.opLdy, .mem (.zp zp), 2, 3)
  | .ldyAbs addr => some (.opLdy, .mem (.abs addr), 3, 4)
  | .ldyZpx zp => some (.opLdy, .mem (.zpx zp), 2, 4)
  | .ldyAbsx addr => some (.opLdy, .mem (.absx addr), 3, 4)
  | .adcIndx zp => some (.opAdc, .mem (.indx zp), 2, 6)
  | .adcZp zp => some (.opAdc, .mem (.zp zp), 2, 3)
  | .adcImm v => some (.opAdc, .imm v, 2, 2)
  | .adcAbs addr => some (.opAdc, .mem (.abs addr), 3, 4)
  | .adcIndy zp => some (.opAdc, .mem (.indy zp), 2, 5)
  | .adcZpx zp => some (.opAdc, .mem (.zpx zp), 2, 4)
  | .adcAbsy addr => some (.opAdc, .mem (.absy addr), 3, 4)
  | .adcAbsx addr => some (.opAdc, .mem (.absx addr), 3, 4)
  | .sbcIndx zp => some (.opSbc, .mem (.indx zp), 2, 6)
  | .sbcZp zp => some (.opSbc, .mem (.zp zp), 2, 3)
  | .sbcImm v => some (.opSbc, .imm v, 2, 2)
  | .sbcAbs addr => some (.opSbc, .mem (.abs addr), 3, 4)
  | .sbcIndy zp => some (.opSbc, .mem (.indy zp), 2, 5)
  | .sbcZpx zp => some (.opSbc, .mem (.zpx zp), 2, 4)
  | .sbcAbsy addr => some (.opSbc, .mem (.absy addr), 3, 4)
  | .sbcAbsx addr => some (.opSbc, .mem (.absx addr), 3, 4)
  | .andIndx zp => some (.opAnd, .mem (.indx zp), 2, 6)
  | .andZp zp => some (.opAnd, .mem (.zp zp), 2, 3)
  | .andImm v => some (.opAnd, .imm v, 2, 2)
  | .andAbs addr => some (.opAnd, .mem (.abs addr), 3, 4)
  | .andIndy zp => some (.opAnd, .mem (.indy zp), 2, 5)
  | .andZpx zp => some (.opAnd, .mem (.zpx zp), 2, 4)
  | .andAbsy addr => some (.opAnd, .mem (.absy addr), 3, 4)
  | .andAbsx addr => some (.opAnd, .mem (.absx addr), 3, 4)
  | .oraIndx zp => some (.opOra, .mem (.indx zp), 2, 6)
  | .oraZp zp => some (.opOra, .mem (.zp zp), 2, 3)
  | .oraImm v => some (.opOra, .imm v, 2, 2)
  | .oraAbs addr => some (.opOra, .mem (.abs addr), 3, 4)
  | .oraIndy zp => some (.opOra, .mem (.indy zp), 2, 5)
  | .oraZpx zp => some (.opOra, .mem (.zpx zp), 2, 4)
  | .oraAbsy addr => some (.opOra, .mem (.absy addr), 3, 4)
  | .oraAbsx addr => some (.opOra, .mem (.absx addr), 3, 4)
  | .eorIndx zp => some (.opEor, .mem (.indx zp), 2, 6)
  | .eorZp zp => some (.opEor, .mem (.zp zp), 2, 3)
  | .eorImm v => some (.opEor, .imm v, 2, 2)
  | .eorAbs addr => some (.opEor, .mem (.abs addr), 3, 4)
  | .eorIndy zp => some (.opEor, .mem (.indy zp), 2, 5)
  | .eorZpx zp => some (.opEor, .mem (.zpx zp), 2, 4)
  | .eorAbsy addr => some (.opEor, .mem (.absy addr), 3, 4)
  | .eorAbsx addr => some (.opEor, .mem (.absx addr), 3, 4)
  | .cmpIndx zp => some (.opCmp, .mem (.indx zp), 2, 6)
  | .cmpZp zp => some (.opCmp, .mem (.zp zp), 2, 3)
  | .cmpImm v => some (.opCmp, .imm v, 2, 2)
  | .cmpAbs addr => some (.opCmp, .mem (.abs addr), 3, 4)
  | .cmpIndy zp => some (.opCmp, .mem (.indy zp), 2, 5)
  | .cmpZpx zp => some (.opCmp, .mem (.zpx zp), 2, 4)
  | .cmpAbsy addr => some (.opCmp, .mem (.absy addr), 3, 4)
  | .cmpAbsx addr => some (.opCmp, .mem (.absx addr), 3, 4)
  | .cpxImm v => some (.opCpx, .imm v, 2, 2)
  | .cpxZp zp => some (.opCpx, .mem (.zp zp), 2, 3)
  | .cpxAbs addr => some (.opCpx, .mem (.abs addr), 3, 4)
  | .cpyImm v => some (.opCpy, .imm v, 2, 2)
  | .cpyZp zp => some (.opCpy, .mem (.zp zp), 2, 3)
  | .cpyAbs addr => some (.opCpy, .mem (.abs addr), 3, 4)
  | .bitZp zp => some (.opBit, .mem (.zp zp), 2, 3)
  | .bitAbs addr => some (.opBit, .mem (.abs addr), 3, 4)
  | _ => none

/-- Stored register, address, length in bytes and cycles of every store (spec/opcode_table.json). -/
def storeForm : Instr → Option (Reg8 × Mode × Nat × Nat)
  | .staIndx zp => some (.a, .indx zp, 2, 6)
  | .staZp zp => some (.a, .zp zp, 2, 3)
  | .staAbs addr => some (.a, .abs addr, 3, 4)
  | .staIndy zp => some (.a, .indy zp, 2, 6)
  | .staZpx zp => some (.a, .zpx zp, 2, 4)
  | .staAbsy addr => some (.a, .absy addr, 3, 5)
  | .staAbsx addr => some (.a, .absx addr, 3, 5)
  | .stxZp zp => some (.x, .zp zp, 2, 3)
  | .stxAbs addr => some (.x, .abs addr, 3, 4)
  | .stxZpy zp => some (.x, .zpy zp, 2, 4)
  | .styZp zp => some (.y, .zp zp, 2, 3)
  | .styAbs addr => some (.y, .abs addr, 3, 4)
  | .styZpx zp => some (.y, .zpx zp, 2, 4)
  | _ => none

/-- The read-modify-write mnemonics (42_shift_incdec.md). -/
inductive RmwOp where
  | opAsl | opLsr | opRol | opRor | opInc | opDec
  deriving DecidableEq, Repr

/-- Mnemonic, address, length in bytes and cycles of every memory form of a read-modify-write instruction (spec/opcode_table.json). -/
def rmwForm : Instr → Option (RmwOp × Mode × Nat × Nat)
  | .aslZp zp => some (.opAsl, .zp zp, 2, 5)
  | .aslAbs addr => some (.opAsl, .abs addr, 3, 6)
  | .aslZpx zp => some (.opAsl, .zpx zp, 2, 6)
  | .aslAbsx addr => some (.opAsl, .absx addr, 3, 7)
  | .lsrZp zp => some (.opLsr, .zp zp, 2, 5)
  | .lsrAbs addr => some (.opLsr, .abs addr, 3, 6)
  | .lsrZpx zp => some (.opLsr, .zpx zp, 2, 6)
  | .lsrAbsx addr => some (.opLsr, .absx addr, 3, 7)
  | .rolZp zp => some (.opRol, .zp zp, 2, 5)
  | .rolAbs addr => some (.opRol, .abs addr, 3, 6)
  | .rolZpx zp => some (.opRol, .zpx zp, 2, 6)
  | .rolAbsx addr => some (.opRol, .absx addr, 3, 7)
  | .rorZp zp => some (.opRor, .zp zp, 2, 5)
  | .rorAbs addr => some (.opRor, .abs addr, 3, 6)
  | .rorZpx zp => some (.opRor, .zpx zp, 2, 6)
  | .rorAbsx addr => some (.opRor, .absx addr, 3, 7)
  | .incZp zp => some (.opInc, .zp zp, 2, 5)
  | .incAbs addr => some (.opInc, .abs addr, 3, 6)
  | .incZpx zp => some (.opInc, .zpx zp, 2, 6)
  | .incAbsx addr => some (.opInc, .absx addr, 3, 7)
  | .decZp zp => some (.opDec, .zp zp, 2, 5)
  | .decAbs addr => some (.opDec, .abs addr, 3, 6)
  | .decZpx zp => some (.opDec, .zpx zp, 2, 6)
  | .decAbsx addr => some (.opDec, .absx addr, 3, 7)
  | _ => none

/-- The condition and the displacement of every branch (43_control_flow.md R295 to R302). -/
def branchForm : Instr → Option ((Flags → Bool) × Int)
  | .bcc off => some (fun p => !p.c, off)
  | .bcs off => some (fun p => p.c, off)
  | .beq off => some (fun p => p.z, off)
  | .bne off => some (fun p => !p.z, off)
  | .bmi off => some (fun p => p.n, off)
  | .bpl off => some (fun p => !p.n, off)
  | .bvc off => some (fun p => !p.v, off)
  | .bvs off => some (fun p => p.v, off)
  | _ => none

/-- The result of a read-modify-write instruction, as a number: the rules' own formulas (42_shift_incdec.md R261 to R266). -/
def RmwOp.value (carry : Bool) (v : Nat) : RmwOp → Nat
  | .opAsl => v * 2 % 256
  | .opLsr => v / 2
  | .opRol => (v * 2 + bit01 carry) % 256
  | .opRor => v / 2 + 128 * bit01 carry
  | .opInc => (v + 1) % 256
  | .opDec => (v + 255) % 256

/-- The carry after a read-modify-write instruction: the bit shifted out; INC and DEC keep it (42_shift_incdec.md R261 to R266). -/
def RmwOp.carry (carry : Bool) (v : Nat) : RmwOp → Bool
  | .opAsl | .opRol => decide (128 ≤ v)
  | .opLsr | .opRor => decide (v % 2 = 1)
  | .opInc | .opDec => carry

/-- The 105 illegal opcode bytes (30_encoding.md R161). -/
def illegalOpcodes : List Byte :=
  [0x02, 0x03, 0x04, 0x07, 0x0B, 0x0C, 0x0F, 0x12, 0x13, 0x14, 0x17, 0x1A, 0x1B, 0x1C, 0x1F, 0x22, 0x23] ++
  [0x27, 0x2B, 0x2F, 0x32, 0x33, 0x34, 0x37, 0x3A, 0x3B, 0x3C, 0x3F, 0x42, 0x43, 0x44, 0x47, 0x4B, 0x4F, 0x52] ++
  [0x53, 0x54, 0x57, 0x5A, 0x5B, 0x5C, 0x5F, 0x62, 0x63, 0x64, 0x67, 0x6B, 0x6F, 0x72, 0x73, 0x74, 0x77, 0x7A] ++
  [0x7B, 0x7C, 0x7F, 0x80, 0x82, 0x83, 0x87, 0x89, 0x8B, 0x8F, 0x92, 0x93, 0x97, 0x9B, 0x9C, 0x9E, 0x9F, 0xA3] ++
  [0xA7, 0xAB, 0xAF, 0xB2, 0xB3, 0xB7, 0xBB, 0xBF, 0xC2, 0xC3, 0xC7, 0xCB, 0xCF, 0xD2, 0xD3, 0xD4, 0xD7, 0xDA] ++
  [0xDB, 0xDC, 0xDF, 0xE2, 0xE3, 0xE7, 0xEB, 0xEF, 0xF2, 0xF3, 0xF4, 0xF7, 0xFA, 0xFB, 0xFC, 0xFF]

/-- The registers and flags of the CPU a program can change. -/
inductive Piece where
  | regA | regX | regY | regSp | flagN | flagV | flagB | flagD | flagI | flagZ | flagC
  deriving DecidableEq, Repr

/-- The value of a register or a flag, as a number. -/
def Cpu.piece (c : Cpu) : Piece → Nat
  | .regA => c.a.toNat
  | .regX => c.x.toNat
  | .regY => c.y.toNat
  | .regSp => c.sp.toNat
  | .flagN => bit01 c.p.n
  | .flagV => bit01 c.p.v
  | .flagB => bit01 c.p.b
  | .flagD => bit01 c.p.d
  | .flagI => bit01 c.p.i
  | .flagZ => bit01 c.p.z
  | .flagC => bit01 c.p.c

/-- What a reading mnemonic writes (10_state.md R21, R24). -/
def ReadOp.writes : ReadOp → List Piece
  | .opLda | .opAnd | .opOra | .opEor => [.regA, .flagN, .flagZ]
  | .opLdx => [.regX, .flagN, .flagZ]
  | .opLdy => [.regY, .flagN, .flagZ]
  | .opAdc | .opSbc => [.regA, .flagN, .flagV, .flagZ, .flagC]
  | .opCmp | .opCpx | .opCpy => [.flagN, .flagZ, .flagC]
  | .opBit => [.flagN, .flagV, .flagZ]

/-- What a read-modify-write mnemonic writes on a memory operand (10_state.md R24). -/
def RmwOp.writes : RmwOp → List Piece
  | .opAsl | .opLsr | .opRol | .opRor => [.flagN, .flagZ, .flagC]
  | .opInc | .opDec => [.flagN, .flagZ]

/-- What an instruction outside the reading and the read-modify-write forms writes, by the same tables; stores, jumps and branches write
nothing. -/
def ownWrites : Instr → List Piece
  | .brk => [.regSp, .flagI]
  | .oraIndx _ => []
  | .oraZp _ => []
  | .aslZp _ => []
  | .php => [.regSp]
  | .oraImm _ => []
  | .aslAcc => [.regA, .flagN, .flagZ, .flagC]
  | .oraAbs _ => []
  | .aslAbs _ => []
  | .bpl _ => []
  | .oraIndy _ => []
  | .oraZpx _ => []
  | .aslZpx _ => []
  | .clc => [.flagC]
  | .oraAbsy _ => []
  | .oraAbsx _ => []
  | .aslAbsx _ => []
  | .jsr _ => [.regSp]
  | .andIndx _ => []
  | .bitZp _ => []
  | .andZp _ => []
  | .rolZp _ => []
  | .plp => [.regSp, .flagN, .flagV, .flagD, .flagI, .flagZ, .flagC]
  | .andImm _ => []
  | .rolAcc => [.regA, .flagN, .flagZ, .flagC]
  | .bitAbs _ => []
  | .andAbs _ => []
  | .rolAbs _ => []
  | .bmi _ => []
  | .andIndy _ => []
  | .andZpx _ => []
  | .rolZpx _ => []
  | .sec => [.flagC]
  | .andAbsy _ => []
  | .andAbsx _ => []
  | .rolAbsx _ => []
  | .rti => [.regSp, .flagN, .flagV, .flagB, .flagD, .flagI, .flagZ, .flagC]
  | .eorIndx _ => []
  | .eorZp _ => []
  | .lsrZp _ => []
  | .pha => [.regSp]
  | .eorImm _ => []
  | .lsrAcc => [.regA, .flagN, .flagZ, .flagC]
  | .jmpAbs _ => []
  | .eorAbs _ => []
  | .lsrAbs _ => []
  | .bvc _ => []
  | .eorIndy _ => []
  | .eorZpx _ => []
  | .lsrZpx _ => []
  | .cli => [.flagI]
  | .eorAbsy _ => []
  | .eorAbsx _ => []
  | .lsrAbsx _ => []
  | .rts => [.regSp]
  | .adcIndx _ => []
  | .adcZp _ => []
  | .rorZp _ => []
  | .pla => [.regA, .regSp, .flagN, .flagZ]
  | .adcImm _ => []
  | .rorAcc => [.regA, .flagN, .flagZ, .flagC]
  | .jmpInd _ => []
  | .adcAbs _ => []
  | .rorAbs _ => []
  | .bvs _ => []
  | .adcIndy _ => []
  | .adcZpx _ => []
  | .rorZpx _ => []
  | .sei => [.flagI]
  | .adcAbsy _ => []
  | .adcAbsx _ => []
  | .rorAbsx _ => []
  | .staIndx _ => []
  | .styZp _ => []
  | .staZp _ => []
  | .stxZp _ => []
  | .dey => [.regY, .flagN, .flagZ]
  | .txa => [.regA, .flagN, .flagZ]
  | .styAbs _ => []
  | .staAbs _ => []
  | .stxAbs _ => []
  | .bcc _ => []
  | .staIndy _ => []
  | .styZpx _ => []
  | .staZpx _ => []
  | .stxZpy _ => []
  | .tya => [.regA, .flagN, .flagZ]
  | .staAbsy _ => []
  | .txs => [.regSp]
  | .staAbsx _ => []
  | .ldyImm _ => []
  | .ldaIndx _ => []
  | .ldxImm _ => []
  | .ldyZp _ => []
  | .ldaZp _ => []
  | .ldxZp _ => []
  | .tay => [.regY, .flagN, .flagZ]
  | .ldaImm _ => []
  | .tax => [.regX, .flagN, .flagZ]
  | .ldyAbs _ => []
  | .ldaAbs _ => []
  | .ldxAbs _ => []
  | .bcs _ => []
  | .ldaIndy _ => []
  | .ldyZpx _ => []
  | .ldaZpx _ => []
  | .ldxZpy _ => []
  | .clv => [.flagV]
  | .ldaAbsy _ => []
  | .tsx => [.regX, .flagN, .flagZ]
  | .ldyAbsx _ => []
  | .ldaAbsx _ => []
  | .ldxAbsy _ => []
  | .cpyImm _ => []
  | .cmpIndx _ => []
  | .cpyZp _ => []
  | .cmpZp _ => []
  | .decZp _ => []
  | .iny => [.regY, .flagN, .flagZ]
  | .cmpImm _ => []
  | .dex => [.regX, .flagN, .flagZ]
  | .cpyAbs _ => []
  | .cmpAbs _ => []
  | .decAbs _ => []
  | .bne _ => []
  | .cmpIndy _ => []
  | .cmpZpx _ => []
  | .decZpx _ => []
  | .cld => [.flagD]
  | .cmpAbsy _ => []
  | .cmpAbsx _ => []
  | .decAbsx _ => []
  | .cpxImm _ => []
  | .sbcIndx _ => []
  | .cpxZp _ => []
  | .sbcZp _ => []
  | .incZp _ => []
  | .inx => [.regX, .flagN, .flagZ]
  | .sbcImm _ => []
  | .nop => []
  | .cpxAbs _ => []
  | .sbcAbs _ => []
  | .incAbs _ => []
  | .beq _ => []
  | .sbcIndy _ => []
  | .sbcZpx _ => []
  | .incZpx _ => []
  | .sed => [.flagD]
  | .sbcAbsy _ => []
  | .sbcAbsx _ => []
  | .incAbsx _ => []

/-- The registers and flags an instruction may write: the "written by" and "set / cleared by" columns of 10_state.md R21, R23
and R24. -/
def instrWrites (i : Instr) : List Piece :=
  match readForm i with
  | some f => f.1.writes
  | none =>
    match rmwForm i with
    | some f => f.1.writes
    | none => ownWrites i

/-- The instructions that push: JSR, BRK, PHA and PHP, by their opcodes (43_control_flow.md R292, R303, 44_stack_flags_nop.md R331, R333). -/
def pushes (i : Instr) : Bool := (encode i).headD 0xEA ∈ ([0x20, 0x00, 0x48, 0x08] : List Byte)

/-- The instructions that store to memory: stores, read-modify-write instructions on memory, pushes (20_memory.md R112,
43_control_flow.md R292, R303, 44_stack_flags_nop.md R331, R333). -/
def storesMemory (i : Instr) : Bool :=
  (storeForm i).isSome || (rmwForm i).isSome || pushes i

/-- The instruction writes $4014, and so starts an OAM DMA: a store or a read-modify-write instruction with that effective address
(53_scheduler_io.md R640). Pushes write internal RAM only. -/
def startsOamDma (i : Instr) (s : State) : Bool :=
  match storeForm i with
  | some (_, m, len, _) => (effective (s.advance len) m).1 == 0x4014
  | none =>
    match rmwForm i with
    | some (_, m, len, _) => (effective (s.advance len) m).1 == 0x4014
    | none => false

/-- The flags byte as it is pushed: N V 1 b D I Z C from bit 7 down (10_state.md R26). -/
def statusByte (p : Flags) (b : Bool) : Byte :=
  (BitVec.ofBool p.n ++ BitVec.ofBool p.v ++ BitVec.ofBool true ++ BitVec.ofBool b ++ BitVec.ofBool p.d ++ BitVec.ofBool p.i
    ++ BitVec.ofBool p.z ++ BitVec.ofBool p.c : BitVec 8)

/-- Internal RAM after two bytes were pushed, high byte first (10_state.md R23, 43_control_flow.md R290). -/
def pushedWord (m : Memory) (sp : Byte) (w : Word) : Memory :=
  (m.write (0x100 + sp.toNat) (hiByte w)).write (0x100 + (sp - 1).toNat) (loByte w)

/-- Internal RAM after an interrupt entry: the return address, then the flags byte (43_control_flow.md R303, 60_exceptions.md R712). -/
def pushedEntry (m : Memory) (sp : Byte) (ret : Word) (flags : Byte) : Memory :=
  (pushedWord m sp ret).write (0x100 + (sp - 2).toNat) flags

/-! ## Steps -/

/-- The CPU's turn, with nothing from the host before it: no fault, the devices in step, no host event (53_scheduler_io.md R632). -/
def Idle (s : State) : Prop := s.fault = none ∧ s.synced = s.cpu.cycles ∧ s.hostQueue = []

/-- An IRQ is pending and not masked (60_exceptions.md R710, R711, R715). -/
def IrqPending (s : State) : Prop :=
  s.cpu.p.i = false ∧
  ((.apu ∈ s.irqSources ∧ (s.apu.frameIrq = true ∨ s.apu.dmc.dmcIrq = true)) ∨
   (.mapper ∈ s.irqSources ∧ ∃ r, s.mapper = .eightReg r ∧ r.irqLine = true))

/-- An NMI is pending and not deferred (60_exceptions.md R710, R720). -/
def NmiPending (s : State) : Prop := s.cpu.nmiPending = true ∧ s.cpu.nmiDefer = false

/-- The bytes of `bs` stand in memory from `a` on. -/
def BytesAt (s : State) (a : Word) (bs : List Byte) : Prop := ∀ k, k < bs.length → peek s (a + BitVec.ofNat 16 k) = bs[k]?

/-- The state after `execute()` gave up a one-call NMI deferral (60_exceptions.md R710). -/
def afterDeferral (s : State) : State :=
  { s with cpu := { s.cpu with nmiDefer := if s.cpu.nmiPending then false else s.cpu.nmiDefer } }

/-- The extra cycle of a reading instruction: one in the modes absx, absy and indy when the indexed sum left its base's page, the bit
`effective` gives; none in any other mode (30_encoding.md R156, R168). -/
def pageCrossCycle (s : State) : Source → Nat
  | .mem (.absx w) => bit01 (effective s (.absx w)).2
  | .mem (.absy w) => bit01 (effective s (.absy w)).2
  | .mem (.indy b) => bit01 (effective s (.indy b)).2
  | .imm _ | .mem (.zp _) | .mem (.zpx _) | .mem (.zpy _) | .mem (.abs _) | .mem (.indx _) => 0

/-- Every form of a reading mnemonic completes when its operand lies at a mapped address: the operand is read once, a byte of memory
without any effect on the machine, and the CPU becomes `effect operand`, with the form's cycles and the page-cross cycle added
(40_load_store_transfer.md R200, 41_alu_logic_compare.md R230, 30_encoding.md R156, R170). -/
def CompletesReading (op : ReadOp) (effect : Byte → Cpu → Cpu) : Prop :=
  ∀ (i : Instr) (src : Source) (len base : Nat) (s : State),
    readForm i = some (op, src, len, base) → Readable (s.advance len) src →
    ∃ v t, fetchSource src (s.advance len) = .ok v t ∧
      (∀ b, memoryOperand (s.advance len) src = some b → v = b ∧ t = s.advance len) ∧
      exec i s = .next { t with cpu := { effect v t.cpu with cycles := t.cpu.cycles + base + pageCrossCycle (s.advance len) src } }

/-- The place of the PPU in its frame, counted in PPU cycles (50_ppu.md R421). -/
def Ppu.position (p : Ppu) : Nat := p.scanline * 341 + p.cycle

/-- `n` reads of a CPU address in a row: the bytes read, and the state after them. -/
def readMany (a : Word) : Nat → State → Access (List Byte)
  | 0, s => .ok [] s
  | n + 1, s =>
    match readByte a s with
    | .fault f => .fault f
    | .ok b s1 =>
      match readMany a n s1 with
      | .fault f => .fault f
      | .ok bs s2 => .ok (b :: bs) s2

/-! ## Invariants of a run -/

/-- Every memory of the machine is in canonical form and inside its size (10_state.md R32, R33, R36, R45; log 4). -/
def MemoriesOk (s : State) : Prop :=
  s.ram.wf 0x800 = true ∧ s.cartRam.wf 0x2000 = true ∧ s.chrRam.wf 0x2000 = true ∧
  s.ppu.oam.wf 0x100 = true ∧ s.ppu.nt.wf 0x1000 = true ∧ s.ppu.palette.wf 0x20 = true ∧ s.ppu.frame.wf 0xF000 = true ∧
  s.ppu.sprSnap.wf 0x100 = true ∧ s.ppu.sprCount.wf 0xF0 = true ∧ s.sinks.lastFrame.wf 0xF000 = true

/-- The PPU stands at a (scanline, cycle) pair of the frame, its sprite-overflow flag is clear, and the frame holds six-bit
entries (10_state.md R36, 50_ppu.md R421, R451, R452). -/
def PpuOk (p : Ppu) : Prop := p.scanline ≤ 261 ∧ p.cycle ≤ 340 ∧ p.spriteOverflow = false ∧ ∀ k, (p.frame.read k).toNat < 64

/-- The APU's counters stand in their ranges: the frame counter inside its sequence, the noise register non-zero, the DMC reader at
$8000 or above, with at most 4081 bytes and one to eight bits to go, no length counter above 254 (10_state.md R39 to R43). -/
def ApuOk (f : FrameSteps) (u : Apu) : Prop :=
  u.fc ≤ (if u.fmode then f.s5 else f.s4) ∧ u.noise.lfsr ≠ 0 ∧ 0x8000 ≤ u.dmc.curAddr.toNat ∧ u.dmc.bytesRem.toNat ≤ 4081 ∧
  1 ≤ u.dmc.bitsRem.toNat ∧ u.dmc.bitsRem.toNat ≤ 8 ∧ u.pulse0.length.toNat ≤ 254 ∧ u.pulse1.length.toNat ≤ 254 ∧
  u.triangle.length.toNat ≤ 254 ∧ u.noise.length.toNat ≤ 254

/-- The controllers' indexes count at most eight reads (10_state.md R46). -/
def PadsOk (c : Controllers) : Prop := c.index0 ≤ 8 ∧ c.index1 ≤ 8

/-- The devices are in range, and no device is ahead of the CPU (53_scheduler_io.md R630, R632). -/
def DevicesOk (s : State) : Prop :=
  PpuOk s.ppu ∧ ApuOk s.params.frameStepCycles s.apu ∧ PadsOk s.pads ∧ s.synced ≤ s.cpu.cycles

/-- What a session fixes: the ROM image, the parameters, the IRQ sources, which bank-switching scheme the mapper is
(10_state.md R29, R34, 52_mappers.md R572). -/
def Mapper.scheme : Mapper → Scheme
  | .fixed => .fixed
  | .bank16 _ => .bank16
  | .eightReg _ => .eightReg
  | .dual d => if d.variantA then .dualA else .dualB

/-- Two states of one session. -/
def SameSession (s t : State) : Prop :=
  t.rom = s.rom ∧ t.params = s.params ∧ t.irqSources = s.irqSources ∧ t.mapper.scheme = s.mapper.scheme

/-- States that a run from a power-up passes through, whatever the host does (00_scope.md R7; 70_reset_and_hazards.md R750). -/
inductive Reachable (rom : RomImage) (p : Params) : State → Prop where
  | start (s : State) (events : List HostEvent) (h : powerUp rom p = .next s) : Reachable rom p { s with hostQueue := events }
  | next (s t : State) (hs : Reachable rom p s) (ht : step s = .next t) : Reachable rom p t

/-- A safe step: it answers a next state. -/
def SafeStep (s : State) : Prop := ∃ t, step s = .next t

end Sys2Proof.Machine
end

