-- ==== Sys2Proof/Certificates/Slice0/Obligations.lean ====
section
/-! DEFINITION. The statements for the provers, each from the rules of spec/ its docstring names. Where a rule carries the spec's own
mark (decision D<n>, derived, from general knowledge), the statement that rests on it has basis 'derived': what it says is then the
spec's choice, which the model follows (log 18). -/

open Sys2Proof Sys2Proof.Machine

/-! ## Encoding -/

/-- O1. Every well-formed instruction is what its own bytes decode to, whatever follows them (30_encoding.md R140, R141, R155, R168). -/
def Obligations.DecodeOfEncode : Prop :=
  ∀ (i : Instr) (rest : List Byte), i.wellFormed = true → decode (encode i ++ rest) = .ok (i, rest)

/-- O2. Whatever decodes is the encoding of a well-formed instruction: each byte string has one meaning (30_encoding.md R140, R167). -/
def Obligations.EncodeOfDecode : Prop :=
  ∀ (bs rest : List Byte) (i : Instr), decode bs = .ok (i, rest) → bs = encode i ++ rest ∧ i.wellFormed = true

/-- O3. One instruction's bytes per family and format, from the opcode matrix (30_encoding.md R140, R167). -/
def Obligations.DecodedWords : Prop :=
  decode [0xA9, 0x80] = .ok (.ldaImm 0x80, []) ∧ decode [0x9D, 0x00, 0x02] = .ok (.staAbsx 0x0200, []) ∧
  decode [0xBA] = .ok (.tsx, []) ∧ decode [0xE1, 0x10] = .ok (.sbcIndx 0x10, []) ∧
  decode [0x2C, 0x02, 0x20] = .ok (.bitAbs 0x2002, []) ∧ decode [0x4A] = .ok (.lsrAcc, []) ∧
  decode [0xF6, 0x7F] = .ok (.incZpx 0x7F, []) ∧ decode [0x6C, 0xFF, 0x02] = .ok (.jmpInd 0x02FF, []) ∧
  decode [0xD0, 0xFB] = .ok (.bne (-5), []) ∧ decode [0x28] = .ok (.plp, []) ∧
  decode [0x02] = .error (.illegalOpcode 0x02)

/-- O4. The bytes no instruction begins with are exactly the 105 of 30_encoding.md R161, which the spec derives
from its matrix R167. -/
def Obligations.IllegalOpcodesAreThe105 : Prop :=
  (∀ op b1 b2 : Byte, decode [op, b1, b2] = .error (.illegalOpcode op) ↔ op ∈ illegalOpcodes) ∧ illegalOpcodes.length = 105

/-! ## One step of the CPU -/

/-- O5. When the CPU's turn has come and no interrupt is ready, a step is `exec` of the instruction whose bytes stand at PC; `exec` itself
moves PC past them. The one thing a step adds is the end of a one-call NMI deferral (30_encoding.md R143, 60_exceptions.md R710). The
second clause is the same for a fetch from a device register, which may have side effects. -/
def Obligations.StepRunsDecodedInstruction : Prop :=
  (∀ (s : State) (bs : List Byte) (i : Instr), Idle s → ¬ IrqPending s → ¬ NmiPending s →
    decode bs = .ok (i, []) → BytesAt s s.cpu.pc bs → step s = exec i (afterDeferral s)) ∧
  (∀ (s t : State) (i : Instr), Idle s → ¬ IrqPending s → ¬ NmiPending s →
    fetch (afterDeferral s) = .ok i t → step s = exec i t)

/-- O6. A step that fetches one of the 105 illegal bytes from memory faults with the byte's address and value (30_encoding.md R160,
60_exceptions.md R702). -/
def Obligations.IllegalOpcodeFaults : Prop :=
  ∀ (s : State) (op : Byte), Idle s → ¬ IrqPending s → ¬ NmiPending s → peek s s.cpu.pc = some op → op ∈ illegalOpcodes →
    step s = .fault (.illegalOpcode s.cpu.pc op)

/-- O7. The effective address and the page-cross bit of every addressing mode, the pointers read from memory (30_encoding.md R146 to
R151, R153, R154). -/
def Obligations.EffectiveAddresses : Prop :=
  ∀ (s : State) (b : Byte) (w : Word),
    effective s (.zp b) = (BitVec.ofNat 16 b.toNat, false) ∧
    effective s (.zpx b) = (BitVec.ofNat 16 ((b.toNat + s.cpu.x.toNat) % 256), false) ∧
    effective s (.zpy b) = (BitVec.ofNat 16 ((b.toNat + s.cpu.y.toNat) % 256), false) ∧
    effective s (.abs w) = (w, false) ∧
    effective s (.absx w) = (BitVec.ofNat 16 (w.toNat + s.cpu.x.toNat),
      decide (w.toNat / 256 ≠ (w.toNat + s.cpu.x.toNat) % 65536 / 256)) ∧
    effective s (.absy w) = (BitVec.ofNat 16 (w.toNat + s.cpu.y.toNat),
      decide (w.toNat / 256 ≠ (w.toNat + s.cpu.y.toNat) % 65536 / 256)) ∧
    (∃ lo hi, peek s (BitVec.ofNat 16 ((b.toNat + s.cpu.x.toNat) % 256)) = some lo ∧
      peek s (BitVec.ofNat 16 ((b.toNat + s.cpu.x.toNat + 1) % 256)) = some hi ∧
      effective s (.indx b) = (BitVec.ofNat 16 (lo.toNat + 256 * hi.toNat), false)) ∧
    (∃ lo hi, peek s (BitVec.ofNat 16 b.toNat) = some lo ∧ peek s (BitVec.ofNat 16 ((b.toNat + 1) % 256)) = some hi ∧
      effective s (.indy b) = (BitVec.ofNat 16 (lo.toNat + 256 * hi.toNat + s.cpu.y.toNat),
        decide ((lo.toNat + 256 * hi.toNat) / 256 ≠ (lo.toNat + 256 * hi.toNat + s.cpu.y.toNat) % 65536 / 256)))

/-! ## The CPU address space -/

/-- O8. Internal RAM, mirrored four times, and cartridge RAM: what a read returns and what a write stores, nothing else (20_memory.md R91,
R95). That every mapper has 8KB at $6000 is the spec's decision D24. -/
def Obligations.RamAndCartridgeRam : Prop :=
  (∀ (s : State) (a : Word) (b : Byte), a.toNat < 0x2000 →
    readByte a s = .ok (s.ram.read (a.toNat % 0x800)) s ∧
    writeByte a b s = .ok () { s with ram := s.ram.write (a.toNat % 0x800) b }) ∧
  (∀ (s : State) (a : Word) (b : Byte), 0x6000 ≤ a.toNat → a.toNat ≤ 0x7FFF →
    readByte a s = .ok (s.cartRam.read (a.toNat - 0x6000)) s ∧
    writeByte a b s = .ok () { s with cartRam := s.cartRam.write (a.toNat - 0x6000) b })

/-- O9. The PPU's registers repeat every eight bytes; a read of $4000 to $4014 gives $00 without effect; a write of $4000 to $4013, $4015 or
$4017 goes to the APU's register at that offset and touches nothing else; $4018 to $5FFF faults, or under `UNLISTED_IO = zero` reads $00
and ignores writes (20_memory.md R92, R93, R94). What each register does with the byte is O46 to O48 for the PPU and O55 for the APU. -/
def Obligations.DeviceAndUnlistedRanges : Prop :=
  (∀ (s : State) (a : Word) (b : Byte), 0x2000 ≤ a.toNat → a.toNat ≤ 0x3FFF →
    readByte a s = .ok (ppuReadRegister (a.toNat % 8) s).1 (ppuReadRegister (a.toNat % 8) s).2 ∧
    writeByte a b s = .ok () (ppuWriteRegister (a.toNat % 8) b s)) ∧
  (∀ (s : State) (a : Word), 0x4000 ≤ a.toNat → a.toNat ≤ 0x4014 → readByte a s = .ok 0 s) ∧
  (∀ (s : State) (a : Word) (b : Byte), (0x4000 ≤ a.toNat ∧ a.toNat ≤ 0x4013) ∨ a = 0x4015 ∨ a = 0x4017 →
    writeByte a b s = .ok () { s with apu := s.apu.writeRegister (a.toNat - 0x4000) b }) ∧
  (∀ (s : State) (a : Word) (b : Byte), 0x4018 ≤ a.toNat → a.toNat ≤ 0x5FFF → s.params.unlistedIo = .fault →
    readByte a s = .fault (.unmappedAddress .cpu a.toNat) ∧ writeByte a b s = .fault (.unmappedAddress .cpu a.toNat)) ∧
  (∀ (s : State) (a : Word) (b : Byte), 0x4018 ≤ a.toNat → a.toNat ≤ 0x5FFF → s.params.unlistedIo = .zero →
    readByte a s = .ok 0 s ∧ writeByte a b s = .ok () s)

/-- O10. A read changes no register of the CPU and no byte of memory; outside the device registers it changes nothing and gives the byte
of memory, or $00 where nothing is listed (20_memory.md R91, R95, R96, R100). -/
def Obligations.ReadsKeepMemory : Prop :=
  ∀ (s t : State) (a : Word) (v : Byte), readByte a s = .ok v t →
    t.cpu = s.cpu ∧ (∀ a', peek t a' = peek s a') ∧ t.ram = s.ram ∧ t.cartRam = s.cartRam ∧ t.chrRam = s.chrRam ∧ t.rom = s.rom ∧
    t.mapper = s.mapper ∧ t.ppu.oam = s.ppu.oam ∧ t.ppu.nt = s.ppu.nt ∧ t.ppu.palette = s.ppu.palette ∧
    (a.toNat < 0x2000 ∨ 0x4018 ≤ a.toNat → t = s ∧ v = (peek s a).getD 0)

/-- O11. An operand at an address no region covers stops the instruction with that address (20_memory.md R94, 60_exceptions.md R703,
40_load_store_transfer.md R200(d), 41_alu_logic_compare.md R230(c), 42_shift_incdec.md R260(e)): every memory form of LDA LDX LDY ADC
SBC AND ORA EOR CMP CPX CPY BIT, STA STX STY, and ASL LSR ROL ROR INC DEC; and `JMP ($nnnn)`, whose pointer's first byte is read before
its second (43_control_flow.md R290, R291). -/
def Obligations.UnmappedOperandFaults : Prop :=
  (∀ (i : Instr) (op : ReadOp) (m : Mode) (len base : Nat) (s : State), readForm i = some (op, .mem m, len, base) →
    ¬ Mapped (s.advance len) (effective (s.advance len) m).1 →
    exec i s = .fault (.unmappedAddress .cpu (effective (s.advance len) m).1.toNat)) ∧
  (∀ (i : Instr) (r : Reg8) (m : Mode) (len base : Nat) (s : State), storeForm i = some (r, m, len, base) →
    ¬ Mapped (s.advance len) (effective (s.advance len) m).1 →
    exec i s = .fault (.unmappedAddress .cpu (effective (s.advance len) m).1.toNat)) ∧
  (∀ (i : Instr) (op : RmwOp) (m : Mode) (len base : Nat) (s : State), rmwForm i = some (op, m, len, base) →
    ¬ Mapped (s.advance len) (effective (s.advance len) m).1 →
    exec i s = .fault (.unmappedAddress .cpu (effective (s.advance len) m).1.toNat)) ∧
  (∀ (s : State) (ptr : Word),
    let second : Word := if s.params.jmpIndPageWrap then (ptr &&& 0xFF00) ||| ((ptr + 1) &&& 0x00FF) else ptr + 1
    (¬ Mapped s ptr → exec (.jmpInd ptr) s = .fault (.unmappedAddress .cpu ptr.toNat)) ∧
    (Mapped s ptr → ¬ Mapped s second → exec (.jmpInd ptr) s = .fault (.unmappedAddress .cpu second.toNat)))

/-! ## Reading instructions -/

/-- O12. LDA, LDX and LDY in every mode: the register takes the operand, N and Z follow it, nothing else of the CPU but PC and the cycles
changes (40_load_store_transfer.md R200 to R203). -/
def Obligations.LoadsTakeTheOperand : Prop :=
  CompletesReading .opLda (fun v c => { c with a := v, p := nzOf c.p v }) ∧
  CompletesReading .opLdx (fun v c => { c with x := v, p := nzOf c.p v }) ∧
  CompletesReading .opLdy (fun v c => { c with y := v, p := nzOf c.p v })

/-- O13. ADC in every mode, by the two's-complement law: the sum modulo 256, C on unsigned overflow, V when the signed sum leaves −128
to 127, D ignored (41_alu_logic_compare.md R231, R240). -/
def Obligations.AdcIsTwosComplementAddition : Prop :=
  CompletesReading .opAdc (fun m c =>
    let sum := c.a.toNat + m.toNat + bit01 c.p.c
    let signed : Int := c.a.toInt + m.toInt + (bit01 c.p.c : Nat)
    let res : Byte := BitVec.ofNat 8 sum
    { c with a := res, p := { nzOf c.p res with c := decide (256 ≤ sum), v := decide (signed < -128 ∨ 127 < signed) } })

/-- O14. SBC in every mode, by the two's-complement law: the difference modulo 256, C when there is no borrow, V when the signed
difference leaves −128 to 127, D ignored (41_alu_logic_compare.md R232, R240). -/
def Obligations.SbcIsTwosComplementSubtraction : Prop :=
  CompletesReading .opSbc (fun m c =>
    let borrow : Int := 1 - (bit01 c.p.c : Nat)
    let unsigned : Int := (c.a.toNat : Int) - (m.toNat : Int) - borrow
    let signed : Int := c.a.toInt - m.toInt - borrow
    let res : Byte := BitVec.ofInt 8 unsigned
    { c with a := res, p := { nzOf c.p res with c := decide (0 ≤ unsigned), v := decide (signed < -128 ∨ 127 < signed) } })

/-- O15. AND, ORA and EOR in every mode (41_alu_logic_compare.md R233 to R235). -/
def Obligations.LogicCombinesWithA : Prop :=
  CompletesReading .opAnd (fun m c => { c with a := c.a &&& m, p := nzOf c.p (c.a &&& m) }) ∧
  CompletesReading .opOra (fun m c => { c with a := c.a ||| m, p := nzOf c.p (c.a ||| m) }) ∧
  CompletesReading .opEor (fun m c => { c with a := c.a ^^^ m, p := nzOf c.p (c.a ^^^ m) })

/-- O16. CMP, CPX and CPY in every mode: C on an unsigned comparison, Z on equality, N bit 7 of the wrapped difference; the register is
not changed (41_alu_logic_compare.md R236 to R238). -/
def Obligations.ComparesWriteFlagsOnly : Prop :=
  let cmp (r m : Byte) (p : Flags) : Flags :=
    { p with c := decide (m.toNat ≤ r.toNat), z := decide (r = m), n := decide (128 ≤ (r.toNat + 256 - m.toNat) % 256) }
  CompletesReading .opCmp (fun m c => { c with p := cmp c.a m c.p }) ∧
  CompletesReading .opCpx (fun m c => { c with p := cmp c.x m c.p }) ∧
  CompletesReading .opCpy (fun m c => { c with p := cmp c.y m c.p })

/-- O17. BIT in both modes: Z from the AND, N and V from bits 7 and 6 of the operand (41_alu_logic_compare.md R239). -/
def Obligations.BitTestsTheOperand : Prop :=
  CompletesReading .opBit (fun m c =>
    { c with p := { c.p with z := decide (c.a &&& m = 0), n := decide (128 ≤ m.toNat), v := decide (64 ≤ m.toNat % 128) } })

/-! ## Storing instructions -/

/-- O18. STA, STX and STY in every mode complete with one write of the register at the effective address and no read of it, whatever
stands there: memory, a device register, ROM (40_load_store_transfer.md R200(b), R204 to R206). -/
def Obligations.StoresWriteOnce : Prop :=
  ∀ (i : Instr) (r : Reg8) (m : Mode) (len base : Nat) (s : State), storeForm i = some (r, m, len, base) →
    Storable (s.advance len) (effective (s.advance len) m).1 (s.getReg r) →
    ∃ t, writeByte (effective (s.advance len) m).1 (s.getReg r) (s.advance len) = .ok () t ∧
      exec i s = .next { t with cpu := { t.cpu with cycles := t.cpu.cycles + base } }

/-- O19. The frame of a store to RAM or cartridge RAM: the byte at the effective address (and its mirrors) becomes the register, every
other address reads as before, and of everything else in the whole state only PC and the cycles change (40_load_store_transfer.md R204
to R206, 20_memory.md R91, R95). -/
def Obligations.StoresChangeOneByte : Prop :=
  ∀ (i : Instr) (r : Reg8) (m : Mode) (len base : Nat) (s : State), storeForm i = some (r, m, len, base) → MemoriesOk s →
    IsRam (effective (s.advance len) m).1 →
    ∃ t, exec i s = .next t ∧
      t = { s with
        cpu := { s.cpu with pc := s.cpu.pc + BitVec.ofNat 16 len, cycles := s.cpu.cycles + base }
        ram := t.ram
        cartRam := t.cartRam } ∧
      (∀ a, SameByte (effective (s.advance len) m).1 a → peek t a = some (s.getReg r)) ∧
      (∀ a, ¬ SameByte (effective (s.advance len) m).1 a → peek t a = peek s a)

/-- O20. ASL, LSR, ROL, ROR, INC and DEC in every memory mode complete at every mapped address with one read, then one write of the
result there; N, Z and C follow the rules' formulas (42_shift_incdec.md R260 to R266). -/
def Obligations.ReadModifyWriteReadsThenWrites : Prop :=
  ∀ (i : Instr) (op : RmwOp) (m : Mode) (len base : Nat) (s : State), rmwForm i = some (op, m, len, base) →
    Mapped (s.advance len) (effective (s.advance len) m).1 →
    ∃ v t u, readByte (effective (s.advance len) m).1 (s.advance len) = .ok v t ∧
      writeByte (effective (s.advance len) m).1 (BitVec.ofNat 8 (op.value s.cpu.p.c v.toNat)) t = .ok () u ∧
      exec i s = .next { u with cpu := { u.cpu with
        p := { nzOf s.cpu.p (BitVec.ofNat 8 (op.value s.cpu.p.c v.toNat)) with c := op.carry s.cpu.p.c v.toNat },
        cycles := u.cpu.cycles + base } }

/-- O21. The frame of a read-modify-write instruction on RAM or cartridge RAM: the byte becomes the result, every other address reads
as before, and of everything else in the whole state only PC, the cycles, N, Z and C change (42_shift_incdec.md R260 to R266). -/
def Obligations.ReadModifyWriteChangesOneByte : Prop :=
  ∀ (i : Instr) (op : RmwOp) (m : Mode) (len base : Nat) (s : State), rmwForm i = some (op, m, len, base) → MemoriesOk s →
    IsRam (effective (s.advance len) m).1 →
    ∃ v t, peek s (effective (s.advance len) m).1 = some v ∧ exec i s = .next t ∧
      t = { s with
        cpu := { s.cpu with
          pc := s.cpu.pc + BitVec.ofNat 16 len
          cycles := s.cpu.cycles + base
          p := { nzOf s.cpu.p (BitVec.ofNat 8 (op.value s.cpu.p.c v.toNat)) with c := op.carry s.cpu.p.c v.toNat } }
        ram := t.ram
        cartRam := t.cartRam } ∧
      (∀ a, SameByte (effective (s.advance len) m).1 a → peek t a = some (BitVec.ofNat 8 (op.value s.cpu.p.c v.toNat))) ∧
      (∀ a, ¬ SameByte (effective (s.advance len) m).1 a → peek t a = peek s a)

/-! ## Register instructions -/

/-- O22. ASL, LSR, ROL and ROR on the accumulator (42_shift_incdec.md R260 to R264). -/
def Obligations.AccumulatorShifts : Prop :=
  ∀ (s : State),
    let shifted (op : RmwOp) : State :=
      let result : Byte := BitVec.ofNat 8 (op.value s.cpu.p.c s.cpu.a.toNat)
      { s with cpu := { s.cpu with
        pc := s.cpu.pc + 1
        cycles := s.cpu.cycles + 2
        a := result
        p := { nzOf s.cpu.p result with c := op.carry s.cpu.p.c s.cpu.a.toNat } } }
    exec .aslAcc s = .next (shifted .opAsl) ∧ exec .lsrAcc s = .next (shifted .opLsr) ∧
    exec .rolAcc s = .next (shifted .opRol) ∧ exec .rorAcc s = .next (shifted .opRor)

/-- O23. TAX, TAY, TXA, TYA, TSX and TXS copy a register, INX, INY, DEX and DEY step one modulo 256: their opcodes and their whole
effect (40_load_store_transfer.md R207 to R212, 42_shift_incdec.md R267 to R270). -/
def Obligations.RegisterInstructions : Prop :=
  (encode .tax = [0xAA] ∧ encode .tay = [0xA8] ∧ encode .txa = [0x8A] ∧ encode .tya = [0x98] ∧ encode .tsx = [0xBA] ∧
    encode .txs = [0x9A] ∧ encode .inx = [0xE8] ∧ encode .iny = [0xC8] ∧ encode .dex = [0xCA] ∧ encode .dey = [0x88]) ∧
  ∀ (s : State),
    let c : Cpu := { s.cpu with pc := s.cpu.pc + 1, cycles := s.cpu.cycles + 2 }
    let up (r : Byte) : Byte := BitVec.ofNat 8 (r.toNat + 1)
    let down (r : Byte) : Byte := BitVec.ofNat 8 (r.toNat + 255)
    exec .tax s = .next { s with cpu := { c with x := c.a, p := nzOf c.p c.a } } ∧
    exec .tay s = .next { s with cpu := { c with y := c.a, p := nzOf c.p c.a } } ∧
    exec .txa s = .next { s with cpu := { c with a := c.x, p := nzOf c.p c.x } } ∧
    exec .tya s = .next { s with cpu := { c with a := c.y, p := nzOf c.p c.y } } ∧
    exec .tsx s = .next { s with cpu := { c with x := c.sp, p := nzOf c.p c.sp } } ∧
    exec .txs s = .next { s with cpu := { c with sp := c.x } } ∧
    exec .inx s = .next { s with cpu := { c with x := up c.x, p := nzOf c.p (up c.x) } } ∧
    exec .iny s = .next { s with cpu := { c with y := up c.y, p := nzOf c.p (up c.y) } } ∧
    exec .dex s = .next { s with cpu := { c with x := down c.x, p := nzOf c.p (down c.x) } } ∧
    exec .dey s = .next { s with cpu := { c with y := down c.y, p := nzOf c.p (down c.y) } }

/-- O24. CLC SEC CLI SEI CLV CLD SED write one flag and nothing else; NOP writes none (44_stack_flags_nop.md R335 to R342). -/
def Obligations.FlagInstructionsAndNop : Prop :=
  (encode .clc = [0x18] ∧ encode .sec = [0x38] ∧ encode .cli = [0x58] ∧ encode .sei = [0x78] ∧ encode .clv = [0xB8] ∧
    encode .cld = [0xD8] ∧ encode .sed = [0xF8] ∧ encode .nop = [0xEA]) ∧
  ∀ (s : State),
    let c : Cpu := { s.cpu with pc := s.cpu.pc + 1, cycles := s.cpu.cycles + 2 }
    exec .clc s = .next { s with cpu := { c with p := { c.p with c := false } } } ∧
    exec .sec s = .next { s with cpu := { c with p := { c.p with c := true } } } ∧
    exec .cli s = .next { s with cpu := { c with p := { c.p with i := false } } } ∧
    exec .sei s = .next { s with cpu := { c with p := { c.p with i := true } } } ∧
    exec .clv s = .next { s with cpu := { c with p := { c.p with v := false } } } ∧
    exec .cld s = .next { s with cpu := { c with p := { c.p with d := false } } } ∧
    exec .sed s = .next { s with cpu := { c with p := { c.p with d := true } } } ∧
    exec .nop s = .next { s with cpu := c }

/-- O25. PHA, PLA, PHP and PLP: the byte, the slot, the stack pointer, the flags, and nothing else (44_stack_flags_nop.md R330 to R334). -/
def Obligations.StackInstructions : Prop :=
  (encode .pha = [0x48] ∧ encode .pla = [0x68] ∧ encode .php = [0x08] ∧ encode .plp = [0x28]) ∧
  ∀ (s : State),
    let c : Cpu := { s.cpu with pc := s.cpu.pc + 1 }
    let top : Byte := s.ram.read (0x100 + (s.cpu.sp + 1).toNat)
    exec .pha s = .next { s with ram := s.ram.write (0x100 + c.sp.toNat) c.a, cpu := { c with sp := c.sp - 1, cycles := c.cycles + 3 } } ∧
    exec .php s = .next { s with
      ram := s.ram.write (0x100 + c.sp.toNat) (statusByte c.p true)
      cpu := { c with sp := c.sp - 1, cycles := c.cycles + 3 } } ∧
    exec .pla s = .next { s with cpu := { c with a := top, p := nzOf c.p top, sp := c.sp + 1, cycles := c.cycles + 4 } } ∧
    exec .plp s = .next { s with cpu := { c with
      p := ⟨top.getLsbD 7, top.getLsbD 6, c.p.b, top.getLsbD 3, top.getLsbD 2, top.getLsbD 1, top.getLsbD 0⟩
      sp := c.sp + 1
      cycles := c.cycles + 4 } }

/-! ## Control transfer -/

/-- O26. JMP takes the absolute target, or the pointer's bytes, the high one from the pointer's page under `JMP_IND_PAGE_WRAP`; JSR
pushes the address of its third byte, high byte first; RTS pops it and adds one. Nothing else changes (43_control_flow.md R291 to R293,
30_encoding.md R152). -/
def Obligations.JumpsCallsAndReturns : Prop :=
  (∀ (s : State) (w : Word), encode (.jmpAbs w) = [0x4C, loByte w, hiByte w] ∧ encode (.jmpInd w) = [0x6C, loByte w, hiByte w] ∧
    encode (.jsr w) = [0x20, loByte w, hiByte w] ∧ encode .rts = [0x60] ∧
    exec (.jmpAbs w) s = .next { s with cpu := { s.cpu with pc := w, cycles := s.cpu.cycles + 3 } } ∧
    exec (.jsr w) s = .next { s with
      ram := pushedWord s.ram s.cpu.sp (s.cpu.pc + 2)
      cpu := { s.cpu with sp := s.cpu.sp - 2, pc := w, cycles := s.cpu.cycles + 6 } } ∧
    exec .rts s = .next { s with cpu := { s.cpu with
      sp := s.cpu.sp + 2
      cycles := s.cpu.cycles + 6
      pc := BitVec.ofNat 16 ((s.ram.read (0x100 + (s.cpu.sp + 1).toNat)).toNat
        + 256 * (s.ram.read (0x100 + (s.cpu.sp + 2).toNat)).toNat + 1) } }) ∧
  (∀ (s : State) (ptr : Word),
    let second : Word := if s.params.jmpIndPageWrap then (ptr &&& 0xFF00) ||| ((ptr + 1) &&& 0x00FF) else ptr + 1
    Mapped s ptr → Mapped s second →
    ∃ lo hi t u, readByte ptr (s.advance 3) = .ok lo t ∧ readByte second t = .ok hi u ∧
      (∀ b, peek s ptr = some b → lo = b ∧ t = s.advance 3) ∧ (∀ b, peek t second = some b → hi = b ∧ u = t) ∧
      exec (.jmpInd ptr) s = .next { u with cpu := { u.cpu with
        pc := BitVec.ofNat 16 (lo.toNat + 256 * hi.toNat)
        cycles := u.cpu.cycles + 5 } })

/-- O27. BCC BCS BEQ BNE BMI BPL BVC BVS: taken or not, the target modulo 65536, two cycles, one more when taken, one more when the
target's page is not that of the next instruction; nothing else changes (43_control_flow.md R294 to R302, 30_encoding.md R155). -/
def Obligations.BranchesOnOneFlag : Prop :=
  ∀ (i : Instr) (cond : Flags → Bool) (off : Int) (s : State), branchForm i = some (cond, off) →
    let next : Word := s.cpu.pc + 2
    let target : Word := BitVec.ofInt 16 (next.toNat + off)
    exec i s = .next { s with cpu := { s.cpu with
      pc := if cond s.cpu.p then target else next
      cycles := s.cpu.cycles + 2 + (if cond s.cpu.p then (if target.toNat / 256 = next.toNat / 256 then 1 else 2) else 0) } }

/-- O28. BRK pushes PC + 2 and the flags with B set, sets I and jumps through $FFFE; nothing else changes (43_control_flow.md R303). -/
def Obligations.BrkEntersTheHandler : Prop :=
  encode .brk = [0x00] ∧
  ∀ (s : State), ∃ lo hi, peek s 0xFFFE = some lo ∧ peek s 0xFFFF = some hi ∧
    exec .brk s = .next { s with
      ram := pushedEntry s.ram s.cpu.sp (s.cpu.pc + 2) (statusByte s.cpu.p true)
      cpu := { s.cpu with
        sp := s.cpu.sp - 3
        pc := BitVec.ofNat 16 (lo.toNat + 256 * hi.toNat)
        p := { s.cpu.p with i := true }
        cycles := s.cpu.cycles + 7 } }

/-- O29. RTI pops the flags, forces B, pops PC and adds nothing to it; nothing else changes (43_control_flow.md R304). -/
def Obligations.RtiRestoresFlagsAndPc : Prop :=
  encode .rti = [0x40] ∧
  ∀ (s : State),
    let f : Byte := s.ram.read (0x100 + (s.cpu.sp + 1).toNat)
    let lo : Byte := s.ram.read (0x100 + (s.cpu.sp + 2).toNat)
    let hi : Byte := s.ram.read (0x100 + (s.cpu.sp + 3).toNat)
    exec .rti s = .next { s with cpu := { s.cpu with
      sp := s.cpu.sp + 3
      pc := BitVec.ofNat 16 (lo.toNat + 256 * hi.toNat)
      cycles := s.cpu.cycles + 6
      p := ⟨f.getLsbD 7, f.getLsbD 6, true, f.getLsbD 3, f.getLsbD 2, f.getLsbD 1, f.getLsbD 0⟩ } }

/-- O30. "BRK followed later by RTI restores PC and flags exactly as pushed, with the break flag forced set after RTI" (43_control_flow.md
R304): from every state with canonical memories, the pair resumes at BRK + 2 with N V D I Z C and SP as before, whatever the stack
pointer, wherever the handler is. -/
def Obligations.BrkThenRti : Prop :=
  ∀ (s t u : State), MemoriesOk s → exec .brk s = .next t → exec .rti t = .next u →
    u.cpu = { s.cpu with pc := s.cpu.pc + 2, p := { s.cpu.p with b := true }, cycles := s.cpu.cycles + 13 } ∧
    (∀ k, ¬ (0x100 ≤ k ∧ k < 0x200) → u.ram.read k = s.ram.read k)

/-! ## Rules over all instructions -/

/-- O31. An instruction changes no register and no flag but those the tables of 10_state.md R21, R23 and R24 give it, and never the NMI
latches: the frame of all 151 instructions. B, in particular, is changed by RTI alone (R25). -/
def Obligations.OnlyTheTablesRegistersChange : Prop :=
  ∀ (i : Instr) (s t : State), exec i s = .next t →
    (∀ q : Piece, q ∉ instrWrites i → t.cpu.piece q = s.cpu.piece q) ∧
    t.cpu.nmiPending = s.cpu.nmiPending ∧ t.cpu.nmiDefer = s.cpu.nmiDefer ∧ t.cpu.nmiAlt = s.cpu.nmiAlt

/-- O32. An instruction that stores nothing leaves every byte of memory as it was: no compare, load, jump, branch, flag or register
instruction writes (40_load_store_transfer.md R200, 41_alu_logic_compare.md R230(b), 20_memory.md R112). -/
def Obligations.OnlyStoresChangeMemory : Prop :=
  ∀ (i : Instr) (s t : State), exec i s = .next t → storesMemory i = false →
    (∀ a, peek t a = peek s a) ∧ t.ram = s.ram ∧ t.cartRam = s.cartRam ∧ t.chrRam = s.chrRam ∧ t.ppu.oam = s.ppu.oam ∧
    t.ppu.nt = s.ppu.nt ∧ t.ppu.palette = s.ppu.palette ∧ t.mapper = s.mapper

/-- O33. Every instruction takes two to seven cycles, page-cross and branch extras included, and 513 more exactly when it is a store or a
read-modify-write instruction whose effective address is $4014, which starts an OAM DMA; a store's and a read-modify-write instruction's
own count is its form's base count (70_reset_and_hazards.md R780, 53_scheduler_io.md R633, R640, 30_encoding.md R156). -/
def Obligations.CyclesPerInstruction : Prop :=
  ∀ (i : Instr) (s t : State), exec i s = .next t →
    ∃ own, 2 ≤ own ∧ own ≤ 7 ∧ t.cpu.cycles = s.cpu.cycles + own + (if startsOamDma i s then 513 else 0) ∧
      (∀ r m len base, storeForm i = some (r, m, len, base) → own = base) ∧
      (∀ op m len base, rmwForm i = some (op, m, len, base) → own = base)

/-! ## Interrupts and faults -/

/-- O34. A pending IRQ, where it goes first, is taken instead of the next instruction: PC and the flags with B clear pushed, I set, PC
from $FFFE, `INT_CYCLES` added; the source is not acknowledged, nothing else changes but the one-call NMI deferral (60_exceptions.md
R710, R712, R714). -/
def Obligations.IrqEntry : Prop :=
  ∀ (s : State), Idle s → IrqPending s → (s.params.intCheckOrder = .irqFirst ∨ ¬ NmiPending s) →
    ∃ lo hi, peek s 0xFFFE = some lo ∧ peek s 0xFFFF = some hi ∧
      step s = .next { s with
        ram := pushedEntry s.ram s.cpu.sp s.cpu.pc (statusByte s.cpu.p false)
        cpu := { (afterDeferral s).cpu with
          sp := s.cpu.sp - 3
          pc := BitVec.ofNat 16 (lo.toNat + 256 * hi.toNat)
          p := { s.cpu.p with i := true }
          cycles := s.cpu.cycles + s.params.intCycles } }

/-- O35. A pending NMI that is not deferred, where it goes first, is taken: PC and the flags with B clear pushed, I unchanged, PC from
$FFFA, the latch cleared, `INT_CYCLES` added (60_exceptions.md R710, R713, R714). B clear in the pushed byte is the spec's decision D11. -/
def Obligations.NmiEntry : Prop :=
  ∀ (s : State), Idle s → NmiPending s → (s.params.intCheckOrder = .nmiFirst ∨ ¬ IrqPending s) →
    ∃ lo hi, peek s 0xFFFA = some lo ∧ peek s 0xFFFB = some hi ∧
      step s = .next { s with
        ram := pushedEntry s.ram s.cpu.sp s.cpu.pc (statusByte s.cpu.p false)
        cpu := { s.cpu with
          sp := s.cpu.sp - 3
          pc := BitVec.ofNat 16 (lo.toNat + 256 * hi.toNat)
          nmiPending := false
          cycles := s.cpu.cycles + s.params.intCycles } }

/-- O36. The edge on the NMI input sets the latch and the deferral by the policy; under `draw` the outcome is the free value of the
current draw, of which nothing is assumed (60_exceptions.md R720, R721; the index of the draw is the model's, log 5). -/
def Obligations.NmiEdgeSetsTheLatch : Prop :=
  ∀ (s : State),
    (s.params.nmiDelayPolicy = .immediate → triggerNmi s = { s with cpu := { s.cpu with nmiPending := true, nmiDefer := false } }) ∧
    (s.params.nmiDelayPolicy = .deferred → triggerNmi s = { s with cpu := { s.cpu with nmiPending := true, nmiDefer := true } }) ∧
    (s.params.nmiDelayPolicy = .alternate → triggerNmi s =
      { s with cpu := { s.cpu with nmiPending := true, nmiDefer := s.cpu.nmiAlt, nmiAlt := !s.cpu.nmiAlt } }) ∧
    (s.params.nmiDelayPolicy = .draw → ∃ outcome, triggerNmi s =
      { s with cpu := { s.cpu with nmiPending := true, nmiDefer := outcome }, draws := s.draws + 1 })

/-- O37. No step is refused, and a step faults for two causes only: an illegal opcode at PC, or an access to $4018 to $5FFF under
`UNLISTED_IO = fault`; a latched fault stays (60_exceptions.md R701 to R704, 20_memory.md R94). -/
def Obligations.FaultsHaveTwoCauses : Prop :=
  (∀ (s : State) (r : Refusal), step s ≠ .refused r) ∧
  (∀ (s : State) (f : Fault), s.fault = some f → step s = .fault f) ∧
  (∀ (s : State) (f : Fault), s.fault = none → step s = .fault f →
    (∃ op, f = .illegalOpcode s.cpu.pc op ∧ op ∈ illegalOpcodes) ∨
    (∃ a, f = .unmappedAddress .cpu a ∧ 0x4018 ≤ a ∧ a ≤ 0x5FFF ∧ s.params.unlistedIo = .fault))

/-! ## Invariants and runs -/

/-- O38. Every step keeps every memory in canonical form and inside its size (10_state.md R32, R33, R36, R45; the form is the model's,
log 4). -/
def Obligations.MemoriesStayCanonical : Prop := ∀ (s t : State), MemoriesOk s → step s = .next t → MemoriesOk t

/-- O39. Every step keeps the devices in the ranges 10_state.md gives them (R36, R39 to R43, R46): the place in the frame, the frame's
six-bit entries, sprite overflow clear, the noise register non-zero, the DMC's address and counters, `synced ≤ cycles`. -/
def Obligations.DevicesStayInRange : Prop := ∀ (s t : State), MemoriesOk s → DevicesOk s → step s = .next t → DevicesOk t

/-- O40. Every step keeps the session: ROM, parameters, IRQ sources and bank-switching scheme never change, and cycles never go back
(10_state.md R27, R29, R34, 20_memory.md R87, R96, 52_mappers.md R572). -/
def Obligations.SessionIsFixed : Prop :=
  ∀ (s t : State), step s = .next t → SameSession s t ∧ s.cpu.cycles ≤ t.cpu.cycles ∧ t.fault = none

/-- O41. From a power-up with any well-formed cartridge and parameters, whatever the host does, every state of the run keeps its
cartridge, parameters, canonical memories and devices in range (53_scheduler_io.md R630, R632, 70_reset_and_hazards.md R750). That the
host acts through the events of `hostQueue`, and the memories' form, are the model's choices (log 6, log 4). -/
def Obligations.ReachableStatesAreOk : Prop :=
  ∀ (rom : RomImage) (p : Params) (s : State), p.wellFormed = true → Reachable rom p s →
    s.rom = rom ∧ s.params = p ∧ s.fault = none ∧ MemoriesOk s ∧ DevicesOk s

/-- O42. While the APU's ranges hold, the devices' turn never faults: a fan-out always answers a next state, with one more cycle
synchronised (53_scheduler_io.md R632, 51_apu.md R532). -/
def Obligations.FanOutAlwaysCompletes : Prop :=
  ∀ (s : State), s.fault = none → s.synced ≠ s.cpu.cycles → ApuOk s.params.frameStepCycles s.apu →
    ∃ t, step s = .next t ∧ t.synced = s.synced + 1

/-- O43. The state after reset, written out: the values of 10_state.md R31 (CPU), R32, R33 and R45 (memories), R36 (PPU), R39 to R43 (APU), R46
(controllers), R47 (Scheduler) and 52_mappers.md R574 (IRQ sources). It is what a power-up of the empty cartridge leaves, and meets the
invariants. The empty cartridge, PC = $0000, the fixed mapping and the vertical mirroring with it, are the model's choice (log 2). -/
def Obligations.ResetStateIsPowerUp : Prop :=
  let noEnvelope : Envelope := { lenHalt := false, constVol := false, vol := 0, start := false, div := 0, decay := 0 }
  let noPulse : Pulse := {
    enabled := false
    duty := 0
    seq := 0
    timerPeriod := 0
    timer := 0
    env := noEnvelope
    length := 0
    swEnabled := false
    swPeriod := 0
    swNegate := false
    swShift := 0
    swReload := false
    swDiv := 0 }
  powerUp RomImage.empty {} = .next State.reset ∧
  State.reset.cpu = {
    a := 0x00
    x := 0x00
    y := 0x00
    sp := 0xFD
    pc := 0x0000
    p := ⟨false, false, true, false, true, false, false⟩
    cycles := 0
    nmiPending := false
    nmiDefer := false
    nmiAlt := false } ∧
  (State.reset.ram = [] ∧ State.reset.cartRam = [] ∧ State.reset.chrRam = []) ∧
  State.reset.ppu = {
    v := 0
    t := 0
    x := 0
    w := false
    ctrl := 0x00
    mask := 0x00
    vblank := false
    sprite0Hit := false
    spriteOverflow := false
    oamaddr := 0x00
    readBuffer := 0x00
    oam := []
    nt := []
    palette := []
    mirroring := .vertical
    frame := []
    scanline := 0
    cycle := 0
    bgq := #v[0, 0, 0, 0, 0, 0, 0, 0, 0, 0, 0, 0, 0, 0, 0, 0]
    sprSnap := []
    sprCount := [] } ∧
  State.reset.apu = {
    fc := 0
    fmode := false
    irqInhibit := false
    frameIrq := false
    half := false
    pulse0 := noPulse
    pulse1 := noPulse
    triangle := {
      enabled := false
      control := false
      linReloadVal := 0
      lin := 0
      linReload := false
      timerPeriod := 0
      timer := 0
      seq := 0
      length := 0 }
    noise := { enabled := false, env := noEnvelope, mode := false, periodIdx := 0, timer := 0, lfsr := 1, length := 0 }
    dmc := {
      irqEnable := false
      loop := false
      rateIdx := 0
      timer := 0
      level := 0
      addrReg := 0x00
      lenReg := 0x00
      curAddr := 0xC000
      bytesRem := 0
      buf := 0x00
      bufFull := false
      shift := 0x00
      bitsRem := 8
      silence := true
      dmcIrq := false } } ∧
  (State.reset.mapper = .fixed ∧ State.reset.irqSources = [.apu]) ∧
  (State.reset.pads.strobe = false ∧ State.reset.pads.index0 = 0 ∧ State.reset.pads.index1 = 0) ∧
  (State.reset.synced = 0 ∧ State.reset.prevVblank = false ∧ State.reset.fault = none) ∧
  (State.reset.rom = RomImage.empty ∧ State.reset.params = {}) ∧
  MemoriesOk State.reset ∧ DevicesOk State.reset

/-- O44. A power-up is refused for a mapper id outside `MAPPER_IDS`, and for an image that breaks the ROM image contract; otherwise the CPU
starts at the reset vector with the parameters' register values and flags and the NMI latches clear, the memories hold their initial
contents, the trainer included, and the PPU, the APU, the mapper's registers, the controllers, the IRQ sources and the Scheduler's
counters stand at their power-up values (70_reset_and_hazards.md R750, R751; 10_state.md R31, R33, R45, R46; 52_mappers.md R572, R573,
R574). That the core itself refuses a malformed image is the model's choice, DEDUCED: the spec leaves it to the loader (log 11). The
mirror bit of an image that is neither vertical nor horizontal is left out (log 10). -/
def Obligations.PowerUpStartsAtTheResetVector : Prop :=
  ∀ (rom : RomImage) (p : Params),
    (rom.wellFormed = false → powerUp rom p = .refused .malformedImage) ∧
    (rom.wellFormed = true → (∀ sch, (rom.mapperId, sch) ∉ p.mapperIds) → powerUp rom p = .refused (.unsupportedMapper rom.mapperId)) ∧
    (∀ sch, rom.wellFormed = true → (rom.mapperId, sch) ∈ p.mapperIds → ∃ s, powerUp rom p = .next s) ∧
    (∀ s, powerUp rom p = .next s →
      let mirrors (m : Bool) : Prop := (rom.mirroring = .vertical → m = false) ∧ (rom.mirroring = .horizontal → m = true)
      (∃ lo hi, peek s 0xFFFC = some lo ∧ peek s 0xFFFD = some hi ∧
        s.cpu = {
          a := p.resetA
          x := p.resetX
          y := p.resetY
          sp := p.resetSP
          pc := BitVec.ofNat 16 (lo.toNat + 256 * hi.toNat)
          p := ⟨p.resetP.getLsbD 7, p.resetP.getLsbD 6, p.resetP.getLsbD 4, p.resetP.getLsbD 3, p.resetP.getLsbD 2, p.resetP.getLsbD 1,
            p.resetP.getLsbD 0⟩
          cycles := p.resetCycles
          nmiPending := false
          nmiDefer := false
          nmiAlt := false }) ∧
      s.ram = p.ramInit ∧ s.chrRam = p.chrRamInit ∧
      (rom.trainer = none ∨ p.trainerInstall = false → s.cartRam = p.cartRamInit) ∧
      (∀ bs, rom.trainer = some bs → p.trainerInstall = true → s.cartRam = p.cartRamInit.writeList 0x1000 bs) ∧
      s.ppu = Ppu.powerUp rom.mirroring ∧ s.apu = Apu.powerUp ∧
      (rom.mapperId, s.mapper.scheme) ∈ p.mapperIds ∧
      (∀ bank, s.mapper = .bank16 bank → bank = 0) ∧
      (∀ r, s.mapper = .eightReg r → mirrors r.mirror ∧ r = {
        bankSelect := 0
        r := #v[0, 2, 4, 5, 6, 7, 0, 1]
        mirror := r.mirror
        ramProtect := 0
        irqLatch := 0
        irqCounter := 0
        irqReload := false
        irqEnabled := false
        irqLine := false }) ∧
      (∀ d, s.mapper = .dual d → mirrors d.mirror ∧ d = {
        variantA := d.variantA
        prg0 := 0
        prg1 := 0
        mirror := d.mirror
        chrLo := Vector.replicate 8 0
        chrHi := Vector.replicate 8 0 }) ∧
      s.irqSources = (if s.mapper.scheme = .eightReg then [.apu, .mapper] else [.apu]) ∧
      s.pads.strobe = false ∧ s.pads.index0 = 0 ∧ s.pads.index1 = 0 ∧
      s.synced = 0 ∧ s.prevVblank = false ∧ s.fault = none ∧ s.rom = rom ∧ s.params = p)

/-- O45. The console's reset button between two Scheduler steps is `cpu.reset()` then `apu.power_up()`; everything else keeps its value
(70_reset_and_hazards.md R751, R752; that it arrives through `hostQueue` is the model's, log 6). -/
def Obligations.ConsoleReset : Prop :=
  ∀ (s : State) (rest : List HostEvent), s.fault = none → s.synced = s.cpu.cycles → s.hostQueue = .reset :: rest →
    ∃ lo hi, peek s 0xFFFC = some lo ∧ peek s 0xFFFD = some hi ∧
      step s = .next { s with
        hostQueue := rest
        apu := Apu.powerUp
        cpu := {
          a := s.params.resetA
          x := s.params.resetX
          y := s.params.resetY
          sp := s.params.resetSP
          pc := BitVec.ofNat 16 (lo.toNat + 256 * hi.toNat)
          p := ⟨s.params.resetP.getLsbD 7, s.params.resetP.getLsbD 6, s.params.resetP.getLsbD 4, s.params.resetP.getLsbD 3,
            s.params.resetP.getLsbD 2, s.params.resetP.getLsbD 1, s.params.resetP.getLsbD 0⟩
          cycles := s.cpu.cycles + s.params.resetCycles
          nmiPending := false
          nmiDefer := false
          nmiAlt := false } }

/-! ## The PPU -/

/-- O46. Reading $2002 or a mirror gives vblank, sprite-0 hit and sprite overflow in bits 7, 6, 5 and clears vblank and the write toggle,
nothing else (50_ppu.md R412). The layout and the
zeros in bits 4 to 0 are the spec's decisions D30 and D31. -/
def Obligations.StatusReadClearsVblankAndToggle : Prop :=
  ∀ (s : State) (a : Word), 0x2000 ≤ a.toNat → a.toNat ≤ 0x3FFF → a.toNat % 8 = 2 →
    readByte a s = .ok
      (BitVec.ofBool s.ppu.vblank ++ BitVec.ofBool s.ppu.sprite0Hit ++ BitVec.ofBool s.ppu.spriteOverflow ++ (0 : BitVec 5))
      { s with ppu := { s.ppu with vblank := false, w := false } }

/-- O47. Every write of $2000 to $2006 and what it leaves of the state: control with its two nametable bits in `t`, mask, the ignored write
of the status register, the OAM address, the OAM data port with its increment, and the scroll and address registers steered by one
toggle, bit by bit; and the reads of $2004 and of the write-only registers, which have no effect (50_ppu.md R401, R410, R411, R413 to
R416, R419). The layouts are the spec's decision D30, the value a write-only register reads as is D31. $2007 is O48. -/
def Obligations.ScrollAndAddressWrites : Prop :=
  ∀ (s : State) (v : Byte),
    (∃ p, writeByte 0x2000 v s = .ok () { s with ppu := p } ∧
      p = { s.ppu with ctrl := v, t := p.t } ∧
      ∀ k, k < 15 → p.t.getLsbD k = if k = 10 then v.getLsbD 0 else if k = 11 then v.getLsbD 1 else s.ppu.t.getLsbD k) ∧
    writeByte 0x2001 v s = .ok () { s with ppu := { s.ppu with mask := v } } ∧
    writeByte 0x2002 v s = .ok () s ∧
    writeByte 0x2003 v s = .ok () { s with ppu := { s.ppu with oamaddr := v } } ∧
    writeByte 0x2004 v s = .ok () { s with ppu := { s.ppu with
      oam := s.ppu.oam.write s.ppu.oamaddr.toNat v
      oamaddr := BitVec.ofNat 8 (s.ppu.oamaddr.toNat + 1) } } ∧
    readByte 0x2004 s = .ok (s.ppu.oam.read s.ppu.oamaddr.toNat) s ∧
    (∀ a ∈ ([0x2000, 0x2001, 0x2003, 0x2005, 0x2006] : List Word), readByte a s = .ok s.params.ppuWriteOnlyRead s) ∧
    (∃ p, writeByte 0x2005 v s = .ok () { s with ppu := p } ∧
      p = { s.ppu with t := p.t, x := p.x, w := !s.ppu.w } ∧
      (s.ppu.w = false → p.x = BitVec.ofNat 3 (v.toNat % 8) ∧
        ∀ k, k < 15 → p.t.getLsbD k = if k < 5 then v.getLsbD (k + 3) else s.ppu.t.getLsbD k) ∧
      (s.ppu.w = true → p.x = s.ppu.x ∧
        ∀ k, k < 15 → p.t.getLsbD k =
          if 12 ≤ k then v.getLsbD (k - 12) else if 5 ≤ k ∧ k < 10 then v.getLsbD (k - 2) else s.ppu.t.getLsbD k)) ∧
    (∃ p, writeByte 0x2006 v s = .ok () { s with ppu := p } ∧
      p = { s.ppu with t := p.t, v := p.v, w := !s.ppu.w } ∧
      (s.ppu.w = false → p.v = s.ppu.v ∧
        ∀ k, k < 15 → p.t.getLsbD k = if k = 14 then false else if 8 ≤ k then v.getLsbD (k - 8) else s.ppu.t.getLsbD k) ∧
      (s.ppu.w = true → p.v = p.t ∧
        ∀ k, k < 15 → p.t.getLsbD k = if k < 8 then v.getLsbD k else s.ppu.t.getLsbD k))

/-- O48. $2007: reads are one behind through the buffer below $3F00 and immediate in the palette, writes go to the PPU space, and both
move `v` by 1 or 32 (50_ppu.md R417, R418). The buffer's refill on a palette read is the spec's decision D39. -/
def Obligations.VramDataPort : Prop :=
  ∀ (s : State) (b : Byte),
    let a := s.ppu.v.toNat % 0x4000
    let next : BitVec 15 := BitVec.ofNat 15 (s.ppu.v.toNat + if s.ppu.ctrl.getLsbD 2 then 32 else 1)
    (a < 0x3F00 → readByte 0x2007 s = .ok s.ppu.readBuffer { s with ppu := { s.ppu with readBuffer := ppuRead s a, v := next } }) ∧
    (0x3F00 ≤ a → readByte 0x2007 s =
      .ok (ppuRead s a) { s with ppu := { s.ppu with readBuffer := ppuRead s (a - 0x1000), v := next } }) ∧
    writeByte 0x2007 b s = .ok () { ppuWrite a b s with ppu := { (ppuWrite a b s).ppu with v := next } }

/-- O49. The nametable slots alias as the mirroring type says, with $3000 to $3EFF the same as $2000 to $2EFF, and the palette's entries
$10, $14, $18, $1C are $00, $04, $08, $0C: what a write through one address makes every other address read (20_memory.md R120, R121,
R122). -/
def Obligations.NametableAndPaletteAliases : Prop :=
  let table (m : Mirroring) (t : Fin 4) (slot : Nat) : Nat :=
    match m with
    | .horizontal => slot / 2
    | .vertical => slot % 2
    | .oneScreen => t.val
    | .fourScreen => slot
  let entry (i : Nat) : Nat := if i % 0x20 = 0x10 ∨ i % 0x20 = 0x14 ∨ i % 0x20 = 0x18 ∨ i % 0x20 = 0x1C then i % 0x20 - 0x10 else i % 0x20
  (∀ (s : State) (b : Byte) (slot slot' k k' : Nat), MemoriesOk s → slot < 4 → slot' < 4 → k < 0x400 → k' < 0x400 →
    ppuRead (ppuWrite (0x2000 + slot * 0x400 + k) b s) (0x2000 + slot' * 0x400 + k') =
      (if k = k' ∧ table s.ppu.mirroring s.params.oneScreenTable slot = table s.ppu.mirroring s.params.oneScreenTable slot' then b
       else ppuRead s (0x2000 + slot' * 0x400 + k'))) ∧
  (∀ (s : State) (b : Byte) (a : Nat), 0x3000 ≤ a → a < 0x3F00 →
    ppuRead s a = ppuRead s (a - 0x1000) ∧ ppuWrite a b s = ppuWrite (a - 0x1000) b s) ∧
  (∀ (s : State) (b : Byte) (i j : Nat), MemoriesOk s → i < 0x100 → j < 0x100 →
    ppuRead (ppuWrite (0x3F00 + i) b s) (0x3F00 + j) = if entry i = entry j then b else ppuRead s (0x3F00 + j))

/-- O50. The vblank flag rises at (241, 1), where the NMI input is signalled if ctrl bit 7 is set; the three status flags fall at
(261, 1); at no other pair does a PPU cycle change vblank, the CPU or the draws, and at no other pair does sprite-0 hit fall or sprite
overflow change (50_ppu.md R422, R423, R424, R452, R453). That nothing else signals the NMI is the spec's decision D37. -/
def Obligations.VblankAndNmi : Prop :=
  ∀ (s : State),
    (s.ppu.scanline = 241 → s.ppu.cycle = 1 → (ppuCycle s).ppu.vblank = true ∧
      (s.ppu.ctrl.getLsbD 7 = true → (ppuCycle s).cpu = (triggerNmi s).cpu ∧ (ppuCycle s).draws = (triggerNmi s).draws) ∧
      (s.ppu.ctrl.getLsbD 7 = false → (ppuCycle s).cpu = s.cpu ∧ (ppuCycle s).draws = s.draws)) ∧
    (s.ppu.scanline = 261 → s.ppu.cycle = 1 → (ppuCycle s).ppu.vblank = false ∧ (ppuCycle s).ppu.sprite0Hit = false ∧
      (ppuCycle s).ppu.spriteOverflow = false ∧ (ppuCycle s).cpu = s.cpu ∧ (ppuCycle s).draws = s.draws) ∧
    (¬ ((s.ppu.scanline = 241 ∨ s.ppu.scanline = 261) ∧ s.ppu.cycle = 1) →
      (ppuCycle s).ppu.vblank = s.ppu.vblank ∧ (ppuCycle s).cpu = s.cpu ∧ (ppuCycle s).draws = s.draws) ∧
    (¬ (s.ppu.scanline = 261 ∧ s.ppu.cycle = 1) →
      (s.ppu.sprite0Hit = true → (ppuCycle s).ppu.sprite0Hit = true) ∧ (ppuCycle s).ppu.spriteOverflow = s.ppu.spriteOverflow)

/-- O51. Every PPU cycle moves the place in the frame on by one, modulo 262 × 341 = 89342, from (0, 0) at power-up (50_ppu.md R421). Frames
of one length and the place at power-up are the spec's decisions D38 and D41. -/
def Obligations.FrameHas89342Cycles : Prop :=
  (∀ (s : State), s.ppu.scanline ≤ 261 → s.ppu.cycle ≤ 340 →
    (ppuCycle s).ppu.position = (s.ppu.position + 1) % 89342 ∧ (ppuCycle s).ppu.scanline ≤ 261 ∧ (ppuCycle s).ppu.cycle ≤ 340) ∧
  (∀ m : Mirroring, (Ppu.powerUp m).scanline = 0 ∧ (Ppu.powerUp m).cycle = 0)

/-- O52. "coarse-X wraps at 31 and toggles horizontal-nametable bit"; "coarse-Y wraps specially at 29 toggling vertical-nametable bit, and
at 31 without toggling", after fine Y; every other field of `v` is kept. The Y increment runs at cycle 256 of every render line while
rendering, after that cycle's fetch and so after its coarse-X increment (50_ppu.md R432, R433). -/
def Obligations.ScrollIncrements : Prop :=
  (∀ (v : BitVec 15),
    let coarseX (v : BitVec 15) := v.toNat % 32
    let coarseY (v : BitVec 15) := v.toNat / 32 % 32
    let fine (v : BitVec 15) := v.toNat / 4096
    (coarseX (coarseXIncrement v) = (coarseX v + 1) % 32 ∧
      (coarseXIncrement v).getLsbD 10 = (v.getLsbD 10 ^^ decide (coarseX v = 31)) ∧
      coarseY (coarseXIncrement v) = coarseY v ∧ fine (coarseXIncrement v) = fine v ∧
      (coarseXIncrement v).getLsbD 11 = v.getLsbD 11) ∧
    (fine (yIncrement v) = (fine v + 1) % 8 ∧
      coarseY (yIncrement v) =
        (if fine v < 7 then coarseY v else if coarseY v = 29 ∨ coarseY v = 31 then 0 else coarseY v + 1) ∧
      (yIncrement v).getLsbD 11 = (v.getLsbD 11 ^^ decide (fine v = 7 ∧ coarseY v = 29)) ∧
      coarseX (yIncrement v) = coarseX v ∧ (yIncrement v).getLsbD 10 = v.getLsbD 10)) ∧
  (∀ (s : State), s.ppu.cycle = 256 → s.ppu.scanline ≤ 239 ∨ s.ppu.scanline = 261 →
    s.ppu.mask.getLsbD 3 = true ∨ s.ppu.mask.getLsbD 4 = true →
    (ppuCycle s).ppu.v = yIncrement (coarseXIncrement s.ppu.v))

/-- O53. With rendering off, a visible PPU cycle writes the universal background colour at its pixel and changes nothing else but the
place in the frame: `v` and the sprite-0 flag stand still (50_ppu.md R420, R430, R450, R451). -/
def Obligations.RenderingOffShowsTheBackground : Prop :=
  ∀ (s : State), s.ppu.mask.getLsbD 3 = false → s.ppu.mask.getLsbD 4 = false → s.ppu.scanline ≤ 239 → 1 ≤ s.ppu.cycle →
    s.ppu.cycle ≤ 256 →
    ppuCycle s = { s with ppu := { s.ppu with
      frame := s.ppu.frame.write (s.ppu.scanline * 256 + (s.ppu.cycle - 1)) (s.ppu.palette.read 0 &&& 0x3F)
      cycle := s.ppu.cycle + 1 } }

/-! ## The APU -/

/-- O54. "in 4-step mode, the frame IRQ flag is set only at the 4th step and only when the IRQ-inhibit bit is clear; in 5-step mode it is
never set", and no sequencer step clears it (51_apu.md R484), with the counter's period S4 + 1 or S5 + 1. -/
def Obligations.FrameIrqAtTheFourthStep : Prop :=
  ∀ (f : FrameSteps) (u : Apu), u.fc ≤ (if u.fmode then f.s5 else f.s4) →
    (u.sequencerStep f).fc = (u.fc + 1) % ((if u.fmode then f.s5 else f.s4) + 1) ∧
    (u.sequencerStep f).frameIrq =
      (u.frameIrq || (!u.fmode && !u.irqInhibit && decide ((u.fc + 1) % (f.s4 + 1) = f.s4)))

/-- O55. The APU's registers. $4015: the status byte's bits, the read's clearing of the frame flag alone; the write's enables, which empty the
length counters and stop or restart the DMC, and clear its flag. $4000 to $4013: the fields each write sets, the length load only while the
channel is enabled, and nothing else. $4017: mode, inhibit, the flag it clears, the counter's restart, and the clocks of 5-step mode; and
what those clocks are: envelopes and linear counter every quarter, length counters and sweeps every half (51_apu.md R481, R485 to R490,
R493, R510, R511, R520, R530, R531, R540, R541). What clears either flag is the spec's decision D51, the layouts are D44, the length table
D46, the immediate effect of $4017 D50. -/
def Obligations.ApuStatusPort : Prop :=
  (∀ (s : State) (b : Byte),
      (∃ v, readByte 0x4015 s = .ok v { s with apu := { s.apu with frameIrq := false } } ∧
        v.getLsbD 0 = decide (0 < s.apu.pulse0.length.toNat) ∧ v.getLsbD 1 = decide (0 < s.apu.pulse1.length.toNat) ∧
        v.getLsbD 2 = decide (0 < s.apu.triangle.length.toNat) ∧ v.getLsbD 3 = decide (0 < s.apu.noise.length.toNat) ∧
        v.getLsbD 4 = decide (0 < s.apu.dmc.bytesRem.toNat) ∧ v.getLsbD 5 = false ∧ v.getLsbD 6 = s.apu.frameIrq ∧
        v.getLsbD 7 = s.apu.dmc.dmcIrq) ∧
      writeByte 0x4015 b s = .ok () { s with apu := { s.apu with
        pulse0 := { s.apu.pulse0 with enabled := b.getLsbD 0, length := if b.getLsbD 0 then s.apu.pulse0.length else 0 }
        pulse1 := { s.apu.pulse1 with enabled := b.getLsbD 1, length := if b.getLsbD 1 then s.apu.pulse1.length else 0 }
        triangle := { s.apu.triangle with enabled := b.getLsbD 2, length := if b.getLsbD 2 then s.apu.triangle.length else 0 }
        noise := { s.apu.noise with enabled := b.getLsbD 3, length := if b.getLsbD 3 then s.apu.noise.length else 0 }
        dmc := { s.apu.dmc with
          dmcIrq := false
          bytesRem :=
            if b.getLsbD 4 = false then 0
            else if s.apu.dmc.bytesRem = 0 then BitVec.ofNat 12 (s.apu.dmc.lenReg.toNat * 16 + 1)
            else s.apu.dmc.bytesRem
          curAddr := if b.getLsbD 4 = true ∧ s.apu.dmc.bytesRem = 0 then BitVec.ofNat 16 (0xC000 + s.apu.dmc.addrReg.toNat * 64)
            else s.apu.dmc.curAddr } } }) ∧
  (∀ (s : State) (b : Byte) (k : Nat), k < 4 →
    let lengths : List Byte := [10, 254, 20, 2, 40, 4, 80, 6, 160, 8, 60, 10, 14, 12, 26, 14, 12, 16, 24, 18, 48, 20, 96, 22, 192, 24, 72, 26,
      16, 28, 32, 30]
    let loaded (enabled : Bool) (length : Byte) : Byte := if enabled then lengths.getD (b.toNat / 8) 0 else length
    let low (period : BitVec 11) : BitVec 11 := BitVec.ofNat 11 (period.toNat / 256 * 256 + b.toNat)
    let high (period : BitVec 11) : BitVec 11 := BitVec.ofNat 11 (b.toNat % 8 * 256 + period.toNat % 256)
    let control (e : Envelope) : Envelope :=
      { e with lenHalt := b.getLsbD 5, constVol := b.getLsbD 4, vol := BitVec.ofNat 4 (b.toNat % 16) }
    let pulse (c : Pulse) : Pulse :=
      if k = 0 then { c with duty := BitVec.ofNat 2 (b.toNat / 64), env := control c.env }
      else if k = 1 then { c with
        swEnabled := b.getLsbD 7
        swPeriod := BitVec.ofNat 3 (b.toNat / 16 % 8)
        swNegate := b.getLsbD 3
        swShift := BitVec.ofNat 3 (b.toNat % 8)
        swReload := true }
      else if k = 2 then { c with timerPeriod := low c.timerPeriod }
      else { c with
        timerPeriod := high c.timerPeriod
        length := loaded c.enabled c.length
        seq := 0
        env := { c.env with start := true } }
    let triangle (c : Triangle) : Triangle :=
      if k = 0 then { c with control := b.getLsbD 7, linReloadVal := BitVec.ofNat 7 (b.toNat % 128) }
      else if k = 1 then c
      else if k = 2 then { c with timerPeriod := low c.timerPeriod }
      else { c with timerPeriod := high c.timerPeriod, length := loaded c.enabled c.length, linReload := true }
    let noise (c : Noise) : Noise :=
      if k = 0 then { c with env := control c.env }
      else if k = 1 then c
      else if k = 2 then { c with mode := b.getLsbD 7, periodIdx := BitVec.ofNat 4 (b.toNat % 16) }
      else { c with length := loaded c.enabled c.length, env := { c.env with start := true } }
    let dmc (c : Dmc) : Dmc :=
      if k = 0 then { c with
        irqEnable := b.getLsbD 7
        loop := b.getLsbD 6
        rateIdx := BitVec.ofNat 4 (b.toNat % 16)
        dmcIrq := if b.getLsbD 7 then c.dmcIrq else false }
      else if k = 1 then { c with level := BitVec.ofNat 7 (b.toNat % 128) }
      else if k = 2 then { c with addrReg := b }
      else { c with lenReg := b }
    writeByte (BitVec.ofNat 16 (0x4000 + k)) b s = .ok () { s with apu := { s.apu with pulse0 := pulse s.apu.pulse0 } } ∧
    writeByte (BitVec.ofNat 16 (0x4004 + k)) b s = .ok () { s with apu := { s.apu with pulse1 := pulse s.apu.pulse1 } } ∧
    writeByte (BitVec.ofNat 16 (0x4008 + k)) b s = .ok () { s with apu := { s.apu with triangle := triangle s.apu.triangle } } ∧
    writeByte (BitVec.ofNat 16 (0x400C + k)) b s = .ok () { s with apu := { s.apu with noise := noise s.apu.noise } } ∧
    writeByte (BitVec.ofNat 16 (0x4010 + k)) b s = .ok () { s with apu := { s.apu with dmc := dmc s.apu.dmc } }) ∧
  (∀ (s : State) (b : Byte),
    let started : Apu := { s.apu with
      fmode := b.getLsbD 7
      irqInhibit := b.getLsbD 6
      frameIrq := if b.getLsbD 6 then false else s.apu.frameIrq
      fc := 0 }
    writeByte 0x4017 b s = .ok () { s with apu := if b.getLsbD 7 then started.quarter.halfFrame else started }) ∧
  (∀ (u : Apu),
    let decayed (e : Envelope) : Envelope := { e with
      start := false
      decay := if e.start then 15 else if e.div ≠ 0 then e.decay else if e.decay ≠ 0 then e.decay - 1 else if e.lenHalt then 15 else 0
      div := if e.start ∨ e.div = 0 then e.vol else e.div - 1 }
    let counted (halt : Bool) (length : Byte) : Byte := if halt ∨ length = 0 then length else length - 1
    let target (c : Pulse) (extra : Int) : Int :=
      if c.swNegate then (c.timerPeriod.toNat : Int) - (c.timerPeriod.toNat / 2 ^ c.swShift.toNat : Nat) - extra
      else c.timerPeriod.toNat + (c.timerPeriod.toNat / 2 ^ c.swShift.toNat : Nat)
    let swept (extra : Int) (c : Pulse) : Pulse := { c with
      length := counted c.env.lenHalt c.length
      timerPeriod :=
        if c.swDiv = 0 ∧ c.swEnabled = true ∧ c.swShift ≠ 0 ∧ 8 ≤ c.timerPeriod.toNat ∧ target c extra ≤ 0x7FF then
          BitVec.ofInt 11 (target c extra)
        else c.timerPeriod
      swDiv := if c.swDiv = 0 ∨ c.swReload = true then c.swPeriod else c.swDiv - 1
      swReload := false }
    u.quarter = { u with
      pulse0 := { u.pulse0 with env := decayed u.pulse0.env }
      pulse1 := { u.pulse1 with env := decayed u.pulse1.env }
      noise := { u.noise with env := decayed u.noise.env }
      triangle := { u.triangle with
        lin := if u.triangle.linReload then u.triangle.linReloadVal else if u.triangle.lin = 0 then 0 else u.triangle.lin - 1
        linReload := if u.triangle.control then u.triangle.linReload else false } } ∧
    u.halfFrame = { u with
      pulse0 := swept 1 u.pulse0
      pulse1 := swept 0 u.pulse1
      triangle := { u.triangle with length := counted u.triangle.control u.triangle.length }
      noise := { u.noise with length := counted u.noise.env.lenHalt u.noise.length } })

/-- O56. The mixer is the exact rational formula, quantized by floor (51_apu.md R550). Its constants are the spec's decision D48. -/
def Obligations.MixerIsTheRationalFormula : Prop :=
  ∀ (p1 p2 t n d : Nat),
    let pulseOut : ℚ := if p1 + p2 = 0 then 0 else (9588 / 100) / (8128 / ((p1 + p2 : Nat) : ℚ) + 100)
    let tndIn : ℚ := (t : ℚ) / 8227 + (n : ℚ) / 12241 + (d : ℚ) / 22638
    let tndOut : ℚ := if tndIn = 0 then 0 else (15979 / 100) / (1 / tndIn + 100)
    ((mix (p1 + p2) t n d).toNat : Int) = ⌊255 * min 1 (max 0 (pulseOut + tndOut))⌋

/-! ## Mapper, DMA, controllers -/

/-- O57. What every address of $8000 to $FFFF reads under each of the four schemes: the page or unit of its window, wrapped modulo the
cartridge's count (52_mappers.md R576, R580, R585, R592, R610; 20_memory.md R96). -/
def Obligations.PrgWindows : Prop :=
  ∀ (s : State) (a : Word), 0x8000 ≤ a.toNat → 1 ≤ s.rom.prgPages →
    let n := s.rom.prgPages
    let page16 (k : Nat) : Nat := k % n * 0x4000 + a.toNat % 0x4000
    let unit8 (k : Nat) : Nat := k % (2 * n) * 0x2000 + a.toNat % 0x2000
    (s.mapper = .fixed → readByte a s = .ok (s.rom.prg.read (page16 (if a.toNat < 0xC000 then 0 else 1))) s) ∧
    (∀ bank, s.mapper = .bank16 bank →
      readByte a s = .ok (s.rom.prg.read (page16 (if a.toNat < 0xC000 then bank.toNat else n - 1))) s) ∧
    (∀ r, s.mapper = .eightReg r → readByte a s = .ok (s.rom.prg.read (unit8 (
      if a.toNat < 0xA000 then (if r.bankSelect.getLsbD 6 then 2 * n - 2 else r.r[6].toNat)
      else if a.toNat < 0xC000 then r.r[7].toNat
      else if a.toNat < 0xE000 then (if r.bankSelect.getLsbD 6 then r.r[6].toNat else 2 * n - 2)
      else 2 * n - 1))) s) ∧
    (∀ d, s.mapper = .dual d → readByte a s = .ok (s.rom.prg.read (unit8 (
      if a.toNat < 0xA000 then d.prg0.toNat else if a.toNat < 0xC000 then d.prg1.toNat
      else if a.toNat < 0xE000 then 2 * n - 2 else 2 * n - 1))) s)

/-- O58. The bank-switching schemes' registers and the scanline counter. A write at $8000 or above never changes ROM: the fixed mapping
ignores it, the 16KB scheme loads its bank, the eight-register and the dual-variant scheme write the register the address selects, and the
mirroring register moves the PPU's mirroring unless the image is four-screen; nothing else changes. After a latch L and a reload the
enabled line of the counter rises at the (L + 1)st clock and not before; once up, it falls only at a write to $E000 (20_memory.md R87, R96;
52_mappers.md R573, R581, R586, R590, R595, R597, R611, R612). The registers and the counter's clock are the spec's decisions D55 to D57. -/
def Obligations.ScanlineCounter : Prop :=
  (∀ (r : EightReg) (latch v : Byte) (k : Nat), r.irqEnabled = true → r.irqLine = false → k ≤ latch.toNat →
    (((r.write 0xC000 latch).write 0xC001 v).clock.irqCounter = latch) ∧
    (EightReg.clock^[k + 1] ((r.write 0xC000 latch).write 0xC001 v)).irqCounter.toNat = latch.toNat - k ∧
    (EightReg.clock^[k + 1] ((r.write 0xC000 latch).write 0xC001 v)).irqLine = decide (k = latch.toNat)) ∧
  (∀ (r : EightReg) (a : Word) (v : Byte), (Mapper.eightReg r).asserts = r.irqLine ∧
    (r.irqLine = true → r.clock.irqLine = true ∧ ((r.write a v).irqLine = false ↔ a &&& 0xE001 = 0xE000))) ∧
  (∀ (s : State) (a : Word) (v : Byte), 0x8000 ≤ a.toNat →
    let mirroredIf (selected : Bool) : Ppu := { s.ppu with
      mirroring := if selected ∧ s.rom.mirroring ≠ .fourScreen then (if v.getLsbD 0 then .horizontal else .vertical) else s.ppu.mirroring }
    (s.mapper = .fixed → writeByte a v s = .ok () s) ∧
    (∀ bank, s.mapper = .bank16 bank → writeByte a v s = .ok () { s with mapper := .bank16 v }) ∧
    (∀ r, s.mapper = .eightReg r →
      let reg : Nat := a.toNat / 0x2000 * 0x2000 + a.toNat % 2
      writeByte a v s = .ok () { s with
        ppu := mirroredIf (reg = 0xA000)
        mapper := .eightReg {
          bankSelect := if reg = 0x8000 then v else r.bankSelect
          r := Vector.ofFn (fun k => if reg = 0x8001 ∧ k.val = r.bankSelect.toNat % 8 then v else r.r[k])
          mirror := if reg = 0xA000 then v.getLsbD 0 else r.mirror
          ramProtect := if reg = 0xA001 then v else r.ramProtect
          irqLatch := if reg = 0xC000 then v else r.irqLatch
          irqCounter := if reg = 0xC001 then 0 else r.irqCounter
          irqReload := if reg = 0xC001 then true else r.irqReload
          irqEnabled := if reg = 0xE000 then false else if reg = 0xE001 then true else r.irqEnabled
          irqLine := if reg = 0xE000 then false else r.irqLine } }) ∧
    (∀ d, s.mapper = .dual d →
      let page : Nat := a.toNat / 0x1000
      let sub : Nat := if d.variantA then a.toNat % 2 * 2 + a.toNat / 2 % 2 else a.toNat % 4
      let chr (high : Nat) (k : Nat) (old : BitVec 4) : BitVec 4 :=
        if 0xB ≤ page ∧ page ≤ 0xE ∧ 2 * k + high = 4 * (page - 0xB) + sub then BitVec.ofNat 4 (v.toNat % 16) else old
      writeByte a v s = .ok () { s with
        ppu := mirroredIf (page = 9)
        mapper := .dual {
          variantA := d.variantA
          prg0 := if page = 8 then BitVec.ofNat 5 (v.toNat % 32) else d.prg0
          prg1 := if page = 0xA then BitVec.ofNat 5 (v.toNat % 32) else d.prg1
          mirror := if page = 9 then v.getLsbD 0 else d.mirror
          chrLo := Vector.ofFn (fun k => chr 0 k.val d.chrLo[k])
          chrHi := Vector.ofFn (fun k => chr 1 k.val d.chrHi[k]) } }))

/-- O59. A write of $4014 copies the 256 bytes of the page named through the CPU's address space into OAM from `oamaddr` on, which comes
round to where it was, and adds 513 cycles; from a page of memory nothing else changes; a page with an unmapped address faults at the
first one (53_scheduler_io.md R640). -/
def Obligations.OamDmaCopiesAPage : Prop :=
  (∀ (s : State) (page : Byte), MemoriesOk s → (page.toNat < 0x20 ∨ 0x60 ≤ page.toNat) →
    ∃ oam, writeByte 0x4014 page s = .ok () { s with
        ppu := { s.ppu with oam := oam }
        cpu := { s.cpu with cycles := s.cpu.cycles + 513 } } ∧
      ∀ k : Byte, some (oam.read (s.ppu.oamaddr + k).toNat) = peek s (BitVec.ofNat 16 (256 * page.toNat + k.toNat))) ∧
  (∀ (s : State) (page : Byte), 0x40 ≤ page.toNat → page.toNat < 0x60 → s.params.unlistedIo = .fault →
    writeByte 0x4014 page s = .fault (.unmappedAddress .cpu (if page = 0x40 then 0x4018 else 256 * page.toNat))) ∧
  (∀ (s : State) (page : Byte), (∀ k : Byte, Mapped s (wordOf k page)) →
    ∃ t, writeByte 0x4014 page s = .ok () t ∧ t.cpu = { s.cpu with cycles := s.cpu.cycles + 513 } ∧ t.ppu.oamaddr = s.ppu.oamaddr)

/-- O60. $4016's bit 0 is the strobe of both controllers; n reads of one port after the strobe fell give its buttons A, B, Select,
Start, Up, Down, Left, Right, then the exhausted bit; while the strobe is up every read gives A. The port's other bits read 0
(53_scheduler_io.md R660 to R662). -/
def Obligations.ControllersShiftOut : Prop :=
  (∀ (s : State) (v : Byte), writeByte 0x4016 v s = .ok () { s with pads := { s.pads with
    strobe := v.getLsbD 0
    index0 := if v.getLsbD 0 then 0 else s.pads.index0
    index1 := if v.getLsbD 0 then 0 else s.pads.index1 } }) ∧
  (∀ (s : State) (n : Nat),
    let levels (b : Buttons) : List Bool := [b.a, b.b, b.select, b.start, b.up, b.down, b.left, b.right]
    let shifted (b : Buttons) : List Byte :=
      (List.range n).map (fun k => if (levels b).getD k s.params.controllerExhaustedBit then 1 else 0)
    (s.pads.strobe = false → s.pads.index0 = 0 →
      readMany 0x4016 n s = .ok (shifted s.pads.buttons0) { s with pads := { s.pads with index0 := min n 8 } }) ∧
    (s.pads.strobe = false → s.pads.index1 = 0 →
      readMany 0x4017 n s = .ok (shifted s.pads.buttons1) { s with pads := { s.pads with index1 := min n 8 } }) ∧
    (s.pads.strobe = true →
      readMany 0x4016 n s = .ok (List.replicate n (if s.pads.buttons0.a then 1 else 0)) s ∧
      readMany 0x4017 n s = .ok (List.replicate n (if s.pads.buttons1.a then 1 else 0)) s))
end

