-- ==== Sys2Proof/Laws/Memory.lean ====
section
/-! SUPPORT. Laws of the sparse byte memory: read after write, the canonical form is kept, equal contents are equal lists. -/

namespace Sys2Proof

open Memory

@[simp] theorem Memory.read_nil (a : Nat) : Memory.read [] a = Memory.fill := rfl

theorem Memory.wf_nil (size : Nat) : Memory.wf size [] = true := rfl

theorem Memory.wfFrom_nil (lo hi : Nat) : Memory.wfFrom lo hi [] = true := rfl

theorem Memory.wfFrom_cons (lo hi k : Nat) (b : Byte) (m : Memory) :
    Memory.wfFrom lo hi ((k, b) :: m) = true ↔ lo ≤ k ∧ k < hi ∧ b ≠ Memory.fill ∧ Memory.wfFrom (k + 1) hi m = true := by
  simp [Memory.wfFrom, and_assoc]

/-- A lower bound may be lowered. -/
theorem Memory.wfFrom_mono {lo lo' hi : Nat} {m : Memory} (h : lo ≤ lo') (hm : Memory.wfFrom lo' hi m = true) :
    Memory.wfFrom lo hi m = true := by
  cases m with
  | nil => rfl
  | cons c m =>
    obtain ⟨k, b⟩ := c
    rw [Memory.wfFrom_cons] at hm ⊢
    exact ⟨by omega, hm.2⟩

/-- An address below every listed one reads as the fill byte. -/
theorem Memory.read_below {lo hi a : Nat} {m : Memory} (hm : Memory.wfFrom lo hi m = true) (h : a < lo) :
    m.read a = Memory.fill := by
  induction m generalizing lo with
  | nil => rfl
  | cons c m ih =>
    obtain ⟨k, b⟩ := c
    rw [Memory.wfFrom_cons] at hm
    have hk : a ≠ k := by omega
    simpa [Memory.read, hk] using ih hm.2.2.2 (by omega)

/-- An address outside the memory's size reads as the fill byte. -/
theorem Memory.read_above {lo hi a : Nat} {m : Memory} (hm : Memory.wfFrom lo hi m = true) (h : hi ≤ a) :
    m.read a = Memory.fill := by
  induction m generalizing lo with
  | nil => rfl
  | cons c m ih =>
    obtain ⟨k, b⟩ := c
    rw [Memory.wfFrom_cons] at hm
    have hk : a ≠ k := by omega
    simpa [Memory.read, hk] using ih hm.2.2.2

theorem Memory.read_cons {lo hi a : Nat} {b : Byte} {m : Memory} (hm : Memory.wfFrom lo hi m = true) (h : a < lo) (a' : Nat) :
    (Memory.cons a b m).read a' = if a' = a then b else m.read a' := by
  unfold Memory.cons
  split
  · split
    · rename_i hb ha
      rw [ha, hb, Memory.read_below hm h]
    · rfl
  · rfl

theorem Memory.wfFrom_consCell {lo hi a : Nat} {b : Byte} {m : Memory} (hm : Memory.wfFrom (a + 1) hi m = true) (h : lo ≤ a)
    (ha : a < hi) : Memory.wfFrom lo hi (Memory.cons a b m) = true := by
  unfold Memory.cons
  split
  · exact Memory.wfFrom_mono (by omega) hm
  · rename_i hb
    rw [Memory.wfFrom_cons]
    exact ⟨h, ha, hb, hm⟩

/-- Reading after a write, on a memory in canonical form. -/
theorem Memory.read_write_from {lo hi a : Nat} {b : Byte} {m : Memory} (hm : Memory.wfFrom lo hi m = true) (a' : Nat) :
    (m.write a b).read a' = if a' = a then b else m.read a' := by
  induction m generalizing lo with
  | nil => exact Memory.read_cons (lo := a + 1) (hi := hi) rfl (by omega) a'
  | cons c m ih =>
    obtain ⟨k, d⟩ := c
    have hc := (Memory.wfFrom_cons lo hi k d m).1 hm
    unfold Memory.write
    split
    · rename_i hak
      have hm' : Memory.wfFrom k hi ((k, d) :: m) = true := by rw [Memory.wfFrom_cons]; exact ⟨Nat.le_refl k, hc.2⟩
      exact Memory.read_cons hm' hak a'
    · split
      · rename_i hak
        rw [Memory.read_cons hc.2.2.2 (by omega) a']
        split
        · rfl
        · rename_i ha'
          have : a' ≠ k := by omega
          simp [Memory.read, this]
      · rename_i h1 h2
        simp only [Memory.read]
        split
        · rename_i ha'
          have : a' ≠ a := by omega
          simp [this]
        · exact ih hc.2.2.2

/-- A write keeps the canonical form. -/
theorem Memory.wfFrom_write {lo hi a : Nat} {b : Byte} {m : Memory} (hm : Memory.wfFrom lo hi m = true) (h : lo ≤ a) (ha : a < hi) :
    Memory.wfFrom lo hi (m.write a b) = true := by
  induction m generalizing lo with
  | nil => exact Memory.wfFrom_consCell rfl h ha
  | cons c m ih =>
    obtain ⟨k, d⟩ := c
    have hc := (Memory.wfFrom_cons lo hi k d m).1 hm
    unfold Memory.write
    split
    · refine Memory.wfFrom_consCell ?_ h ha
      rw [Memory.wfFrom_cons]
      exact ⟨by omega, hc.2⟩
    · split
      · rename_i hak
        exact Memory.wfFrom_consCell (hak ▸ hc.2.2.2) h ha
      · rw [Memory.wfFrom_cons]
        exact ⟨hc.1, hc.2.1, hc.2.2.1, ih hc.2.2.2 (by omega)⟩

/-- The byte just written. -/
theorem Memory.read_write_same {size a : Nat} {b : Byte} {m : Memory} (hm : m.wf size = true) : (m.write a b).read a = b := by
  simp [Memory.read_write_from hm]

/-- Every other byte. -/
theorem Memory.read_write_other {size a a' : Nat} {b : Byte} {m : Memory} (hm : m.wf size = true) (h : a' ≠ a) :
    (m.write a b).read a' = m.read a' := by
  simp [Memory.read_write_from hm, h]

theorem Memory.wf_write {size a : Nat} {b : Byte} {m : Memory} (hm : m.wf size = true) (ha : a < size) :
    (m.write a b).wf size = true := Memory.wfFrom_write hm (Nat.zero_le a) ha

theorem Memory.wf_writeList {size : Nat} {bs : List Byte} {a : Nat} {m : Memory} (hm : m.wf size = true)
    (ha : a + bs.length ≤ size) : (m.writeList a bs).wf size = true := by
  induction bs generalizing a m with
  | nil => exact hm
  | cons b bs ih =>
    simp only [List.length_cons] at ha
    exact ih (Memory.wf_write hm (by omega)) (by omega)

theorem Memory.wfFrom_tabulate (f : Nat → Byte) (a n hi : Nat) (h : a + n ≤ hi) :
    Memory.wfFrom a hi (Memory.tabulate f a n) = true := by
  induction n generalizing a with
  | zero => rfl
  | succ n ih => exact Memory.wfFrom_consCell (ih (a + 1) (by omega)) (Nat.le_refl a) (by omega)

theorem Memory.read_tabulate (f : Nat → Byte) (a n a' : Nat) :
    (Memory.tabulate f a n).read a' = if a ≤ a' ∧ a' < a + n then f a' else Memory.fill := by
  induction n generalizing a with
  | zero =>
    have : ¬ (a ≤ a' ∧ a' < a + 0) := by omega
    simp [Memory.tabulate]
  | succ n ih =>
    simp only [Memory.tabulate]
    rw [Memory.read_cons (Memory.wfFrom_tabulate f (a + 1) n (a + 1 + n) (Nat.le_refl _)) (by omega), ih]
    by_cases h : a' = a
    · subst h
      simp
    · by_cases h2 : a + 1 ≤ a' ∧ a' < a + 1 + n
      · have h3 : a ≤ a' ∧ a' < a + (n + 1) := by omega
        rw [if_neg h, if_pos h2, if_pos h3]
      · have h3 : ¬ (a ≤ a' ∧ a' < a + (n + 1)) := by omega
        rw [if_neg h, if_neg h2, if_neg h3]

/-- Equal contents are equal lists, from the canonical form. -/
theorem Memory.eq_of_read_from {lo hi : Nat} {m m' : Memory} (hm : Memory.wfFrom lo hi m = true) (hm' : Memory.wfFrom lo hi m' = true)
    (h : ∀ a, m.read a = m'.read a) : m = m' := by
  induction m generalizing lo m' with
  | nil =>
    cases m' with
    | nil => rfl
    | cons c m' =>
      obtain ⟨k, b⟩ := c
      have hc := (Memory.wfFrom_cons lo hi k b m').1 hm'
      have := h k
      simp [Memory.read] at this
      exact absurd this.symm hc.2.2.1
  | cons c m ih =>
    obtain ⟨k, b⟩ := c
    have hc := (Memory.wfFrom_cons lo hi k b m).1 hm
    cases m' with
    | nil =>
      have := h k
      simp [Memory.read] at this
      exact absurd this hc.2.2.1
    | cons c' m' =>
      obtain ⟨k', b'⟩ := c'
      have hc' := (Memory.wfFrom_cons lo hi k' b' m').1 hm'
      have hk : k = k' := by
        by_contra hne
        rcases Nat.lt_or_gt_of_ne hne with hlt | hlt
        · have h1 := h k
          rw [show Memory.read ((k', b') :: m') k = Memory.fill from by
            simp [Memory.read, hne, Memory.read_below hc'.2.2.2 (by omega : k < k' + 1)]] at h1
          simp [Memory.read] at h1
          exact hc.2.2.1 h1
        · have h1 := h k'
          rw [show Memory.read ((k, b) :: m) k' = Memory.fill from by
            simp [Memory.read, Ne.symm hne, Memory.read_below hc.2.2.2 (by omega : k' < k + 1)]] at h1
          simp [Memory.read] at h1
          exact hc'.2.2.1 h1.symm
      subst hk
      have hb : b = b' := by simpa [Memory.read] using h k
      subst hb
      congr 1
      refine ih hc.2.2.2 hc'.2.2.2 (fun a => ?_)
      by_cases ha : a = k
      · rw [ha, Memory.read_below hc.2.2.2 (by omega), Memory.read_below hc'.2.2.2 (by omega)]
      · simpa [Memory.read, ha] using h a

end Sys2Proof
end

