-- ==== Sys2Proof/Laws/State.lean ====
section
/-! SUPPORT. One lemma per field per update of the state, true by rfl: no later proof unfolds a record update. -/

namespace Sys2Proof.Machine

/-! ## `State.setPc` -/

@[simp] theorem State.setPc_ram (s : State) (w : Word) : (s.setPc w).ram = s.ram := rfl
@[simp] theorem State.setPc_cartRam (s : State) (w : Word) : (s.setPc w).cartRam = s.cartRam := rfl
@[simp] theorem State.setPc_chrRam (s : State) (w : Word) : (s.setPc w).chrRam = s.chrRam := rfl
@[simp] theorem State.setPc_ppu (s : State) (w : Word) : (s.setPc w).ppu = s.ppu := rfl
@[simp] theorem State.setPc_apu (s : State) (w : Word) : (s.setPc w).apu = s.apu := rfl
@[simp] theorem State.setPc_mapper (s : State) (w : Word) : (s.setPc w).mapper = s.mapper := rfl
@[simp] theorem State.setPc_pads (s : State) (w : Word) : (s.setPc w).pads = s.pads := rfl
@[simp] theorem State.setPc_synced (s : State) (w : Word) : (s.setPc w).synced = s.synced := rfl
@[simp] theorem State.setPc_prevVblank (s : State) (w : Word) : (s.setPc w).prevVblank = s.prevVblank := rfl
@[simp] theorem State.setPc_fault (s : State) (w : Word) : (s.setPc w).fault = s.fault := rfl
@[simp] theorem State.setPc_sinks (s : State) (w : Word) : (s.setPc w).sinks = s.sinks := rfl
@[simp] theorem State.setPc_draws (s : State) (w : Word) : (s.setPc w).draws = s.draws := rfl
@[simp] theorem State.setPc_hostQueue (s : State) (w : Word) : (s.setPc w).hostQueue = s.hostQueue := rfl
@[simp] theorem State.setPc_irqSources (s : State) (w : Word) : (s.setPc w).irqSources = s.irqSources := rfl
@[simp] theorem State.setPc_rom (s : State) (w : Word) : (s.setPc w).rom = s.rom := rfl
@[simp] theorem State.setPc_params (s : State) (w : Word) : (s.setPc w).params = s.params := rfl
@[simp] theorem State.setPc_cpu_a (s : State) (w : Word) : (s.setPc w).cpu.a = s.cpu.a := rfl
@[simp] theorem State.setPc_cpu_x (s : State) (w : Word) : (s.setPc w).cpu.x = s.cpu.x := rfl
@[simp] theorem State.setPc_cpu_y (s : State) (w : Word) : (s.setPc w).cpu.y = s.cpu.y := rfl
@[simp] theorem State.setPc_cpu_sp (s : State) (w : Word) : (s.setPc w).cpu.sp = s.cpu.sp := rfl
@[simp] theorem State.setPc_cpu_pc (s : State) (w : Word) : (s.setPc w).cpu.pc = w := rfl
@[simp] theorem State.setPc_cpu_p (s : State) (w : Word) : (s.setPc w).cpu.p = s.cpu.p := rfl
@[simp] theorem State.setPc_cpu_cycles (s : State) (w : Word) : (s.setPc w).cpu.cycles = s.cpu.cycles := rfl
@[simp] theorem State.setPc_cpu_nmiPending (s : State) (w : Word) : (s.setPc w).cpu.nmiPending = s.cpu.nmiPending := rfl
@[simp] theorem State.setPc_cpu_nmiDefer (s : State) (w : Word) : (s.setPc w).cpu.nmiDefer = s.cpu.nmiDefer := rfl
@[simp] theorem State.setPc_cpu_nmiAlt (s : State) (w : Word) : (s.setPc w).cpu.nmiAlt = s.cpu.nmiAlt := rfl

/-! ## `State.setFlags` -/

@[simp] theorem State.setFlags_ram (s : State) (q : Flags) : (s.setFlags q).ram = s.ram := rfl
@[simp] theorem State.setFlags_cartRam (s : State) (q : Flags) : (s.setFlags q).cartRam = s.cartRam := rfl
@[simp] theorem State.setFlags_chrRam (s : State) (q : Flags) : (s.setFlags q).chrRam = s.chrRam := rfl
@[simp] theorem State.setFlags_ppu (s : State) (q : Flags) : (s.setFlags q).ppu = s.ppu := rfl
@[simp] theorem State.setFlags_apu (s : State) (q : Flags) : (s.setFlags q).apu = s.apu := rfl
@[simp] theorem State.setFlags_mapper (s : State) (q : Flags) : (s.setFlags q).mapper = s.mapper := rfl
@[simp] theorem State.setFlags_pads (s : State) (q : Flags) : (s.setFlags q).pads = s.pads := rfl
@[simp] theorem State.setFlags_synced (s : State) (q : Flags) : (s.setFlags q).synced = s.synced := rfl
@[simp] theorem State.setFlags_prevVblank (s : State) (q : Flags) : (s.setFlags q).prevVblank = s.prevVblank := rfl
@[simp] theorem State.setFlags_fault (s : State) (q : Flags) : (s.setFlags q).fault = s.fault := rfl
@[simp] theorem State.setFlags_sinks (s : State) (q : Flags) : (s.setFlags q).sinks = s.sinks := rfl
@[simp] theorem State.setFlags_draws (s : State) (q : Flags) : (s.setFlags q).draws = s.draws := rfl
@[simp] theorem State.setFlags_hostQueue (s : State) (q : Flags) : (s.setFlags q).hostQueue = s.hostQueue := rfl
@[simp] theorem State.setFlags_irqSources (s : State) (q : Flags) : (s.setFlags q).irqSources = s.irqSources := rfl
@[simp] theorem State.setFlags_rom (s : State) (q : Flags) : (s.setFlags q).rom = s.rom := rfl
@[simp] theorem State.setFlags_params (s : State) (q : Flags) : (s.setFlags q).params = s.params := rfl
@[simp] theorem State.setFlags_cpu_a (s : State) (q : Flags) : (s.setFlags q).cpu.a = s.cpu.a := rfl
@[simp] theorem State.setFlags_cpu_x (s : State) (q : Flags) : (s.setFlags q).cpu.x = s.cpu.x := rfl
@[simp] theorem State.setFlags_cpu_y (s : State) (q : Flags) : (s.setFlags q).cpu.y = s.cpu.y := rfl
@[simp] theorem State.setFlags_cpu_sp (s : State) (q : Flags) : (s.setFlags q).cpu.sp = s.cpu.sp := rfl
@[simp] theorem State.setFlags_cpu_pc (s : State) (q : Flags) : (s.setFlags q).cpu.pc = s.cpu.pc := rfl
@[simp] theorem State.setFlags_cpu_p (s : State) (q : Flags) : (s.setFlags q).cpu.p = q := rfl
@[simp] theorem State.setFlags_cpu_cycles (s : State) (q : Flags) : (s.setFlags q).cpu.cycles = s.cpu.cycles := rfl
@[simp] theorem State.setFlags_cpu_nmiPending (s : State) (q : Flags) : (s.setFlags q).cpu.nmiPending = s.cpu.nmiPending := rfl
@[simp] theorem State.setFlags_cpu_nmiDefer (s : State) (q : Flags) : (s.setFlags q).cpu.nmiDefer = s.cpu.nmiDefer := rfl
@[simp] theorem State.setFlags_cpu_nmiAlt (s : State) (q : Flags) : (s.setFlags q).cpu.nmiAlt = s.cpu.nmiAlt := rfl

/-! ## `State.addCycles` -/

@[simp] theorem State.addCycles_ram (s : State) (n : Nat) : (s.addCycles n).ram = s.ram := rfl
@[simp] theorem State.addCycles_cartRam (s : State) (n : Nat) : (s.addCycles n).cartRam = s.cartRam := rfl
@[simp] theorem State.addCycles_chrRam (s : State) (n : Nat) : (s.addCycles n).chrRam = s.chrRam := rfl
@[simp] theorem State.addCycles_ppu (s : State) (n : Nat) : (s.addCycles n).ppu = s.ppu := rfl
@[simp] theorem State.addCycles_apu (s : State) (n : Nat) : (s.addCycles n).apu = s.apu := rfl
@[simp] theorem State.addCycles_mapper (s : State) (n : Nat) : (s.addCycles n).mapper = s.mapper := rfl
@[simp] theorem State.addCycles_pads (s : State) (n : Nat) : (s.addCycles n).pads = s.pads := rfl
@[simp] theorem State.addCycles_synced (s : State) (n : Nat) : (s.addCycles n).synced = s.synced := rfl
@[simp] theorem State.addCycles_prevVblank (s : State) (n : Nat) : (s.addCycles n).prevVblank = s.prevVblank := rfl
@[simp] theorem State.addCycles_fault (s : State) (n : Nat) : (s.addCycles n).fault = s.fault := rfl
@[simp] theorem State.addCycles_sinks (s : State) (n : Nat) : (s.addCycles n).sinks = s.sinks := rfl
@[simp] theorem State.addCycles_draws (s : State) (n : Nat) : (s.addCycles n).draws = s.draws := rfl
@[simp] theorem State.addCycles_hostQueue (s : State) (n : Nat) : (s.addCycles n).hostQueue = s.hostQueue := rfl
@[simp] theorem State.addCycles_irqSources (s : State) (n : Nat) : (s.addCycles n).irqSources = s.irqSources := rfl
@[simp] theorem State.addCycles_rom (s : State) (n : Nat) : (s.addCycles n).rom = s.rom := rfl
@[simp] theorem State.addCycles_params (s : State) (n : Nat) : (s.addCycles n).params = s.params := rfl
@[simp] theorem State.addCycles_cpu_a (s : State) (n : Nat) : (s.addCycles n).cpu.a = s.cpu.a := rfl
@[simp] theorem State.addCycles_cpu_x (s : State) (n : Nat) : (s.addCycles n).cpu.x = s.cpu.x := rfl
@[simp] theorem State.addCycles_cpu_y (s : State) (n : Nat) : (s.addCycles n).cpu.y = s.cpu.y := rfl
@[simp] theorem State.addCycles_cpu_sp (s : State) (n : Nat) : (s.addCycles n).cpu.sp = s.cpu.sp := rfl
@[simp] theorem State.addCycles_cpu_pc (s : State) (n : Nat) : (s.addCycles n).cpu.pc = s.cpu.pc := rfl
@[simp] theorem State.addCycles_cpu_p (s : State) (n : Nat) : (s.addCycles n).cpu.p = s.cpu.p := rfl
@[simp] theorem State.addCycles_cpu_cycles (s : State) (n : Nat) : (s.addCycles n).cpu.cycles = s.cpu.cycles + n := rfl
@[simp] theorem State.addCycles_cpu_nmiPending (s : State) (n : Nat) : (s.addCycles n).cpu.nmiPending = s.cpu.nmiPending := rfl
@[simp] theorem State.addCycles_cpu_nmiDefer (s : State) (n : Nat) : (s.addCycles n).cpu.nmiDefer = s.cpu.nmiDefer := rfl
@[simp] theorem State.addCycles_cpu_nmiAlt (s : State) (n : Nat) : (s.addCycles n).cpu.nmiAlt = s.cpu.nmiAlt := rfl

/-! ## `State.advance` -/

@[simp] theorem State.advance_ram (s : State) (n : Nat) : (s.advance n).ram = s.ram := rfl
@[simp] theorem State.advance_cartRam (s : State) (n : Nat) : (s.advance n).cartRam = s.cartRam := rfl
@[simp] theorem State.advance_chrRam (s : State) (n : Nat) : (s.advance n).chrRam = s.chrRam := rfl
@[simp] theorem State.advance_ppu (s : State) (n : Nat) : (s.advance n).ppu = s.ppu := rfl
@[simp] theorem State.advance_apu (s : State) (n : Nat) : (s.advance n).apu = s.apu := rfl
@[simp] theorem State.advance_mapper (s : State) (n : Nat) : (s.advance n).mapper = s.mapper := rfl
@[simp] theorem State.advance_pads (s : State) (n : Nat) : (s.advance n).pads = s.pads := rfl
@[simp] theorem State.advance_synced (s : State) (n : Nat) : (s.advance n).synced = s.synced := rfl
@[simp] theorem State.advance_prevVblank (s : State) (n : Nat) : (s.advance n).prevVblank = s.prevVblank := rfl
@[simp] theorem State.advance_fault (s : State) (n : Nat) : (s.advance n).fault = s.fault := rfl
@[simp] theorem State.advance_sinks (s : State) (n : Nat) : (s.advance n).sinks = s.sinks := rfl
@[simp] theorem State.advance_draws (s : State) (n : Nat) : (s.advance n).draws = s.draws := rfl
@[simp] theorem State.advance_hostQueue (s : State) (n : Nat) : (s.advance n).hostQueue = s.hostQueue := rfl
@[simp] theorem State.advance_irqSources (s : State) (n : Nat) : (s.advance n).irqSources = s.irqSources := rfl
@[simp] theorem State.advance_rom (s : State) (n : Nat) : (s.advance n).rom = s.rom := rfl
@[simp] theorem State.advance_params (s : State) (n : Nat) : (s.advance n).params = s.params := rfl
@[simp] theorem State.advance_cpu_a (s : State) (n : Nat) : (s.advance n).cpu.a = s.cpu.a := rfl
@[simp] theorem State.advance_cpu_x (s : State) (n : Nat) : (s.advance n).cpu.x = s.cpu.x := rfl
@[simp] theorem State.advance_cpu_y (s : State) (n : Nat) : (s.advance n).cpu.y = s.cpu.y := rfl
@[simp] theorem State.advance_cpu_sp (s : State) (n : Nat) : (s.advance n).cpu.sp = s.cpu.sp := rfl
@[simp] theorem State.advance_cpu_pc (s : State) (n : Nat) : (s.advance n).cpu.pc = s.cpu.pc + BitVec.ofNat 16 n := rfl
@[simp] theorem State.advance_cpu_p (s : State) (n : Nat) : (s.advance n).cpu.p = s.cpu.p := rfl
@[simp] theorem State.advance_cpu_cycles (s : State) (n : Nat) : (s.advance n).cpu.cycles = s.cpu.cycles := rfl
@[simp] theorem State.advance_cpu_nmiPending (s : State) (n : Nat) : (s.advance n).cpu.nmiPending = s.cpu.nmiPending := rfl
@[simp] theorem State.advance_cpu_nmiDefer (s : State) (n : Nat) : (s.advance n).cpu.nmiDefer = s.cpu.nmiDefer := rfl
@[simp] theorem State.advance_cpu_nmiAlt (s : State) (n : Nat) : (s.advance n).cpu.nmiAlt = s.cpu.nmiAlt := rfl

/-! ## `State.withPpu` -/

@[simp] theorem State.withPpu_cpu (s : State) (q : Ppu) : (s.withPpu q).cpu = s.cpu := rfl
@[simp] theorem State.withPpu_ram (s : State) (q : Ppu) : (s.withPpu q).ram = s.ram := rfl
@[simp] theorem State.withPpu_cartRam (s : State) (q : Ppu) : (s.withPpu q).cartRam = s.cartRam := rfl
@[simp] theorem State.withPpu_chrRam (s : State) (q : Ppu) : (s.withPpu q).chrRam = s.chrRam := rfl
@[simp] theorem State.withPpu_apu (s : State) (q : Ppu) : (s.withPpu q).apu = s.apu := rfl
@[simp] theorem State.withPpu_mapper (s : State) (q : Ppu) : (s.withPpu q).mapper = s.mapper := rfl
@[simp] theorem State.withPpu_pads (s : State) (q : Ppu) : (s.withPpu q).pads = s.pads := rfl
@[simp] theorem State.withPpu_synced (s : State) (q : Ppu) : (s.withPpu q).synced = s.synced := rfl
@[simp] theorem State.withPpu_prevVblank (s : State) (q : Ppu) : (s.withPpu q).prevVblank = s.prevVblank := rfl
@[simp] theorem State.withPpu_fault (s : State) (q : Ppu) : (s.withPpu q).fault = s.fault := rfl
@[simp] theorem State.withPpu_sinks (s : State) (q : Ppu) : (s.withPpu q).sinks = s.sinks := rfl
@[simp] theorem State.withPpu_draws (s : State) (q : Ppu) : (s.withPpu q).draws = s.draws := rfl
@[simp] theorem State.withPpu_hostQueue (s : State) (q : Ppu) : (s.withPpu q).hostQueue = s.hostQueue := rfl
@[simp] theorem State.withPpu_irqSources (s : State) (q : Ppu) : (s.withPpu q).irqSources = s.irqSources := rfl
@[simp] theorem State.withPpu_rom (s : State) (q : Ppu) : (s.withPpu q).rom = s.rom := rfl
@[simp] theorem State.withPpu_params (s : State) (q : Ppu) : (s.withPpu q).params = s.params := rfl
@[simp] theorem State.withPpu_ppu (s : State) (q : Ppu) : (s.withPpu q).ppu = q := rfl

/-! ## `State.withApu` -/

@[simp] theorem State.withApu_cpu (s : State) (q : Apu) : (s.withApu q).cpu = s.cpu := rfl
@[simp] theorem State.withApu_ram (s : State) (q : Apu) : (s.withApu q).ram = s.ram := rfl
@[simp] theorem State.withApu_cartRam (s : State) (q : Apu) : (s.withApu q).cartRam = s.cartRam := rfl
@[simp] theorem State.withApu_chrRam (s : State) (q : Apu) : (s.withApu q).chrRam = s.chrRam := rfl
@[simp] theorem State.withApu_ppu (s : State) (q : Apu) : (s.withApu q).ppu = s.ppu := rfl
@[simp] theorem State.withApu_mapper (s : State) (q : Apu) : (s.withApu q).mapper = s.mapper := rfl
@[simp] theorem State.withApu_pads (s : State) (q : Apu) : (s.withApu q).pads = s.pads := rfl
@[simp] theorem State.withApu_synced (s : State) (q : Apu) : (s.withApu q).synced = s.synced := rfl
@[simp] theorem State.withApu_prevVblank (s : State) (q : Apu) : (s.withApu q).prevVblank = s.prevVblank := rfl
@[simp] theorem State.withApu_fault (s : State) (q : Apu) : (s.withApu q).fault = s.fault := rfl
@[simp] theorem State.withApu_sinks (s : State) (q : Apu) : (s.withApu q).sinks = s.sinks := rfl
@[simp] theorem State.withApu_draws (s : State) (q : Apu) : (s.withApu q).draws = s.draws := rfl
@[simp] theorem State.withApu_hostQueue (s : State) (q : Apu) : (s.withApu q).hostQueue = s.hostQueue := rfl
@[simp] theorem State.withApu_irqSources (s : State) (q : Apu) : (s.withApu q).irqSources = s.irqSources := rfl
@[simp] theorem State.withApu_rom (s : State) (q : Apu) : (s.withApu q).rom = s.rom := rfl
@[simp] theorem State.withApu_params (s : State) (q : Apu) : (s.withApu q).params = s.params := rfl
@[simp] theorem State.withApu_apu (s : State) (q : Apu) : (s.withApu q).apu = q := rfl

/-! ## `State.setReg` -/

@[simp] theorem State.setReg_ram (s : State) (r : Reg8) (b : Byte) : (s.setReg r b).ram = s.ram := by cases r <;> rfl
@[simp] theorem State.setReg_cartRam (s : State) (r : Reg8) (b : Byte) : (s.setReg r b).cartRam = s.cartRam := by cases r <;> rfl
@[simp] theorem State.setReg_chrRam (s : State) (r : Reg8) (b : Byte) : (s.setReg r b).chrRam = s.chrRam := by cases r <;> rfl
@[simp] theorem State.setReg_ppu (s : State) (r : Reg8) (b : Byte) : (s.setReg r b).ppu = s.ppu := by cases r <;> rfl
@[simp] theorem State.setReg_apu (s : State) (r : Reg8) (b : Byte) : (s.setReg r b).apu = s.apu := by cases r <;> rfl
@[simp] theorem State.setReg_mapper (s : State) (r : Reg8) (b : Byte) : (s.setReg r b).mapper = s.mapper := by cases r <;> rfl
@[simp] theorem State.setReg_pads (s : State) (r : Reg8) (b : Byte) : (s.setReg r b).pads = s.pads := by cases r <;> rfl
@[simp] theorem State.setReg_synced (s : State) (r : Reg8) (b : Byte) : (s.setReg r b).synced = s.synced := by cases r <;> rfl
@[simp] theorem State.setReg_prevVblank (s : State) (r : Reg8) (b : Byte) : (s.setReg r b).prevVblank = s.prevVblank := by cases r <;> rfl
@[simp] theorem State.setReg_fault (s : State) (r : Reg8) (b : Byte) : (s.setReg r b).fault = s.fault := by cases r <;> rfl
@[simp] theorem State.setReg_sinks (s : State) (r : Reg8) (b : Byte) : (s.setReg r b).sinks = s.sinks := by cases r <;> rfl
@[simp] theorem State.setReg_draws (s : State) (r : Reg8) (b : Byte) : (s.setReg r b).draws = s.draws := by cases r <;> rfl
@[simp] theorem State.setReg_hostQueue (s : State) (r : Reg8) (b : Byte) : (s.setReg r b).hostQueue = s.hostQueue := by cases r <;> rfl
@[simp] theorem State.setReg_irqSources (s : State) (r : Reg8) (b : Byte) : (s.setReg r b).irqSources = s.irqSources := by cases r <;> rfl
@[simp] theorem State.setReg_rom (s : State) (r : Reg8) (b : Byte) : (s.setReg r b).rom = s.rom := by cases r <;> rfl
@[simp] theorem State.setReg_params (s : State) (r : Reg8) (b : Byte) : (s.setReg r b).params = s.params := by cases r <;> rfl
@[simp] theorem State.setReg_cpu_pc (s : State) (r : Reg8) (b : Byte) : (s.setReg r b).cpu.pc = s.cpu.pc := by cases r <;> rfl
@[simp] theorem State.setReg_cpu_p (s : State) (r : Reg8) (b : Byte) : (s.setReg r b).cpu.p = s.cpu.p := by cases r <;> rfl
@[simp] theorem State.setReg_cpu_cycles (s : State) (r : Reg8) (b : Byte) : (s.setReg r b).cpu.cycles = s.cpu.cycles := by cases r <;> rfl
@[simp] theorem State.setReg_cpu_nmiPending (s : State) (r : Reg8) (b : Byte) : (s.setReg r b).cpu.nmiPending = s.cpu.nmiPending := by cases r <;> rfl
@[simp] theorem State.setReg_cpu_nmiDefer (s : State) (r : Reg8) (b : Byte) : (s.setReg r b).cpu.nmiDefer = s.cpu.nmiDefer := by cases r <;> rfl
@[simp] theorem State.setReg_cpu_nmiAlt (s : State) (r : Reg8) (b : Byte) : (s.setReg r b).cpu.nmiAlt = s.cpu.nmiAlt := by cases r <;> rfl
@[simp] theorem State.setReg_cpu_a (s : State) (r : Reg8) (b : Byte) : (s.setReg r b).cpu.a = if r = .a then b else s.cpu.a := by cases r <;> rfl
@[simp] theorem State.setReg_cpu_x (s : State) (r : Reg8) (b : Byte) : (s.setReg r b).cpu.x = if r = .x then b else s.cpu.x := by cases r <;> rfl
@[simp] theorem State.setReg_cpu_y (s : State) (r : Reg8) (b : Byte) : (s.setReg r b).cpu.y = if r = .y then b else s.cpu.y := by cases r <;> rfl
@[simp] theorem State.setReg_cpu_sp (s : State) (r : Reg8) (b : Byte) : (s.setReg r b).cpu.sp = if r = .sp then b else s.cpu.sp := by cases r <;> rfl

@[simp] theorem State.getReg_setReg (s : State) (r r' : Reg8) (b : Byte) : (s.setReg r b).getReg r' = if r' = r then b else s.getReg r' := by
  cases r <;> cases r' <;> rfl

@[simp] theorem State.getReg_setPc (s : State) (w : Word) (r : Reg8) : (s.setPc w).getReg r = s.getReg r := by cases r <;> rfl
@[simp] theorem State.getReg_setFlags (s : State) (q : Flags) (r : Reg8) : (s.setFlags q).getReg r = s.getReg r := by cases r <;> rfl
@[simp] theorem State.getReg_addCycles (s : State) (n : Nat) (r : Reg8) : (s.addCycles n).getReg r = s.getReg r := by cases r <;> rfl
@[simp] theorem State.getReg_advance (s : State) (n : Nat) (r : Reg8) : (s.advance n).getReg r = s.getReg r := by cases r <;> rfl
@[simp] theorem State.getReg_withPpu (s : State) (q : Ppu) (r : Reg8) : (s.withPpu q).getReg r = s.getReg r := by cases r <;> rfl
@[simp] theorem State.getReg_withApu (s : State) (q : Apu) (r : Reg8) : (s.withApu q).getReg r = s.getReg r := by cases r <;> rfl

/-! ## The stack -/

@[simp] theorem push_cartRam (b : Byte) (s : State) : (push b s).cartRam = s.cartRam := rfl
@[simp] theorem push_chrRam (b : Byte) (s : State) : (push b s).chrRam = s.chrRam := rfl
@[simp] theorem push_ppu (b : Byte) (s : State) : (push b s).ppu = s.ppu := rfl
@[simp] theorem push_apu (b : Byte) (s : State) : (push b s).apu = s.apu := rfl
@[simp] theorem push_mapper (b : Byte) (s : State) : (push b s).mapper = s.mapper := rfl
@[simp] theorem push_pads (b : Byte) (s : State) : (push b s).pads = s.pads := rfl
@[simp] theorem push_synced (b : Byte) (s : State) : (push b s).synced = s.synced := rfl
@[simp] theorem push_prevVblank (b : Byte) (s : State) : (push b s).prevVblank = s.prevVblank := rfl
@[simp] theorem push_fault (b : Byte) (s : State) : (push b s).fault = s.fault := rfl
@[simp] theorem push_sinks (b : Byte) (s : State) : (push b s).sinks = s.sinks := rfl
@[simp] theorem push_draws (b : Byte) (s : State) : (push b s).draws = s.draws := rfl
@[simp] theorem push_hostQueue (b : Byte) (s : State) : (push b s).hostQueue = s.hostQueue := rfl
@[simp] theorem push_irqSources (b : Byte) (s : State) : (push b s).irqSources = s.irqSources := rfl
@[simp] theorem push_rom (b : Byte) (s : State) : (push b s).rom = s.rom := rfl
@[simp] theorem push_params (b : Byte) (s : State) : (push b s).params = s.params := rfl
@[simp] theorem push_ram (b : Byte) (s : State) : (push b s).ram = s.ram.write (stackIndex s.cpu.sp) b := rfl
@[simp] theorem push_cpu_a (b : Byte) (s : State) : (push b s).cpu.a = s.cpu.a := rfl
@[simp] theorem push_cpu_x (b : Byte) (s : State) : (push b s).cpu.x = s.cpu.x := rfl
@[simp] theorem push_cpu_y (b : Byte) (s : State) : (push b s).cpu.y = s.cpu.y := rfl
@[simp] theorem push_cpu_sp (b : Byte) (s : State) : (push b s).cpu.sp = s.cpu.sp - 1 := rfl
@[simp] theorem push_cpu_pc (b : Byte) (s : State) : (push b s).cpu.pc = s.cpu.pc := rfl
@[simp] theorem push_cpu_p (b : Byte) (s : State) : (push b s).cpu.p = s.cpu.p := rfl
@[simp] theorem push_cpu_cycles (b : Byte) (s : State) : (push b s).cpu.cycles = s.cpu.cycles := rfl
@[simp] theorem push_cpu_nmiPending (b : Byte) (s : State) : (push b s).cpu.nmiPending = s.cpu.nmiPending := rfl
@[simp] theorem push_cpu_nmiDefer (b : Byte) (s : State) : (push b s).cpu.nmiDefer = s.cpu.nmiDefer := rfl
@[simp] theorem push_cpu_nmiAlt (b : Byte) (s : State) : (push b s).cpu.nmiAlt = s.cpu.nmiAlt := rfl
@[simp] theorem dropTop_ram (s : State) : (dropTop s).ram = s.ram := rfl
@[simp] theorem dropTop_cartRam (s : State) : (dropTop s).cartRam = s.cartRam := rfl
@[simp] theorem dropTop_chrRam (s : State) : (dropTop s).chrRam = s.chrRam := rfl
@[simp] theorem dropTop_ppu (s : State) : (dropTop s).ppu = s.ppu := rfl
@[simp] theorem dropTop_apu (s : State) : (dropTop s).apu = s.apu := rfl
@[simp] theorem dropTop_mapper (s : State) : (dropTop s).mapper = s.mapper := rfl
@[simp] theorem dropTop_pads (s : State) : (dropTop s).pads = s.pads := rfl
@[simp] theorem dropTop_synced (s : State) : (dropTop s).synced = s.synced := rfl
@[simp] theorem dropTop_prevVblank (s : State) : (dropTop s).prevVblank = s.prevVblank := rfl
@[simp] theorem dropTop_fault (s : State) : (dropTop s).fault = s.fault := rfl
@[simp] theorem dropTop_sinks (s : State) : (dropTop s).sinks = s.sinks := rfl
@[simp] theorem dropTop_draws (s : State) : (dropTop s).draws = s.draws := rfl
@[simp] theorem dropTop_hostQueue (s : State) : (dropTop s).hostQueue = s.hostQueue := rfl
@[simp] theorem dropTop_irqSources (s : State) : (dropTop s).irqSources = s.irqSources := rfl
@[simp] theorem dropTop_rom (s : State) : (dropTop s).rom = s.rom := rfl
@[simp] theorem dropTop_params (s : State) : (dropTop s).params = s.params := rfl
@[simp] theorem dropTop_cpu_a (s : State) : (dropTop s).cpu.a = s.cpu.a := rfl
@[simp] theorem dropTop_cpu_x (s : State) : (dropTop s).cpu.x = s.cpu.x := rfl
@[simp] theorem dropTop_cpu_y (s : State) : (dropTop s).cpu.y = s.cpu.y := rfl
@[simp] theorem dropTop_cpu_sp (s : State) : (dropTop s).cpu.sp = s.cpu.sp + 1 := rfl
@[simp] theorem dropTop_cpu_pc (s : State) : (dropTop s).cpu.pc = s.cpu.pc := rfl
@[simp] theorem dropTop_cpu_p (s : State) : (dropTop s).cpu.p = s.cpu.p := rfl
@[simp] theorem dropTop_cpu_cycles (s : State) : (dropTop s).cpu.cycles = s.cpu.cycles := rfl
@[simp] theorem dropTop_cpu_nmiPending (s : State) : (dropTop s).cpu.nmiPending = s.cpu.nmiPending := rfl
@[simp] theorem dropTop_cpu_nmiDefer (s : State) : (dropTop s).cpu.nmiDefer = s.cpu.nmiDefer := rfl
@[simp] theorem dropTop_cpu_nmiAlt (s : State) : (dropTop s).cpu.nmiAlt = s.cpu.nmiAlt := rfl

end Sys2Proof.Machine
end

