-- ==== Sys2Proof/Laws/Space.lean ====
section
/-! SUPPORT. The two address maps, resolved: what a read and a write of the CPU space come to in each range (20_memory.md R90 to R96),
and that the PPU space is covered (R120). Later proofs cite these and never unfold the maps. -/

namespace Sys2Proof.Machine

/-! ## Resolving an address space -/

theorem covering_nil {P : Type} (a : Nat) : AddressSpace.covering ([] : AddressSpace P) a = none := rfl

theorem covering_below {P : Type} {o a : Nat} (r : Region P) (sp : AddressSpace P) (h : a < o) :
    AddressSpace.covering ((o, r) :: sp) a = none := by simp [AddressSpace.covering, h]

theorem covering_above {P : Type} {o a : Nat} (r : Region P) (sp : AddressSpace P) (h : o ≤ a) :
    AddressSpace.covering ((o, r) :: sp) a = some ((AddressSpace.covering sp a).getD (o, r)) := by
  have : ¬ a < o := by omega
  simp only [AddressSpace.covering, this, if_false]
  cases AddressSpace.covering sp a <;> rfl

theorem readTarget_of_covering {P : Type} {sp : AddressSpace P} {a o : Nat} {r : Region P}
    (hc : AddressSpace.covering sp a = some (o, r)) (h : a - o < r.size) :
    AddressSpace.readTarget sp a = some (r.readTarget (a - o)) := by simp [AddressSpace.readTarget, hc, h]

theorem writeTarget_of_covering {P : Type} {sp : AddressSpace P} {a o : Nat} {r : Region P}
    (hc : AddressSpace.covering sp a = some (o, r)) (h : a - o < r.size) :
    AddressSpace.writeTarget sp a = some (r.writeTarget (a - o)) := by simp [AddressSpace.writeTarget, hc, h]

/-! ## Regions of the CPU map -/

theorem covering_ram (s : State) (n : Nat) (h : n < 0x2000) :
    AddressSpace.covering (cpuSpace s) n = some (0x0000, .mirror 0x2000 0 (.array .ram 0 0x800)) := by
  unfold cpuSpace
  simp (disch := omega) only [covering_above, covering_below, Option.getD_none]

theorem covering_ppu (s : State) (n : Nat) (h0 : 0x2000 ≤ n) (h : n < 0x4000) :
    AddressSpace.covering (cpuSpace s) n = some (0x2000, .mirror 0x2000 0 (.port .ppu 8)) := by
  unfold cpuSpace
  simp (disch := omega) only [covering_above, covering_below, Option.getD_none, Option.getD_some]

theorem covering_io (s : State) (n : Nat) (h0 : 0x4000 ≤ n) (h : n < 0x4018) :
    AddressSpace.covering (cpuSpace s) n = some (0x4000, .port .io 0x18) := by
  unfold cpuSpace
  cases s.params.unlistedIo <;> simp (disch := omega) only [unlistedRegions, List.nil_append, List.cons_append, covering_above,
    covering_below, Option.getD_none, Option.getD_some]

theorem covering_unlisted (s : State) (n : Nat) (h0 : 0x4018 ≤ n) (h : n < 0x6000) :
    AddressSpace.covering (cpuSpace s) n =
      some (if s.params.unlistedIo = .zero then (0x4018, .zeros 0x1FE8) else (0x4000, .port .io 0x18)) := by
  unfold cpuSpace
  cases s.params.unlistedIo <;> simp (disch := omega) only [unlistedRegions, List.nil_append, List.cons_append, covering_above,
    covering_below, Option.getD_none, Option.getD_some] <;> rfl

theorem covering_cart (s : State) (n : Nat) (h0 : 0x6000 ≤ n) (h : n < 0x8000) :
    AddressSpace.covering (cpuSpace s) n = some (0x6000, .array .cartRam 0 0x2000) := by
  unfold cpuSpace prgWindow
  cases s.params.unlistedIo <;> simp (disch := omega) only [unlistedRegions, List.nil_append, List.cons_append, covering_above,
    covering_below, Option.getD_none, Option.getD_some]

theorem covering_prg (s : State) (n w : Nat) (hw : w < 4) (h0 : 0x8000 + w * 0x2000 ≤ n) (h : n < 0x8000 + w * 0x2000 + 0x2000) :
    AddressSpace.covering (cpuSpace s) n = some (prgWindow s w) := by
  unfold cpuSpace prgWindow
  rcases (by omega : w = 0 ∨ w = 1 ∨ w = 2 ∨ w = 3) with rfl | rfl | rfl | rfl <;> cases s.params.unlistedIo <;>
    simp (disch := omega) only [unlistedRegions, List.nil_append, List.cons_append, covering_above, covering_below,
      covering_nil, Option.getD_none, Option.getD_some]

/-! ## Targets of the CPU map -/

theorem cpuTargets_ram (s : State) (n : Nat) (h : n < 0x2000) :
    AddressSpace.readTarget (cpuSpace s) n = some (.cell .ram (n % 0x800)) ∧
    AddressSpace.writeTarget (cpuSpace s) n = some (.cell .ram (n % 0x800)) := by
  have hc := covering_ram s n h
  rw [readTarget_of_covering hc h, writeTarget_of_covering hc h]
  simp [Region.readTarget, Region.writeTarget, Region.size]

theorem cpuTargets_ppu (s : State) (n : Nat) (h0 : 0x2000 ≤ n) (h : n < 0x4000) :
    AddressSpace.readTarget (cpuSpace s) n = some (.port .ppu (n % 8)) ∧
    AddressSpace.writeTarget (cpuSpace s) n = some (.port .ppu (n % 8)) := by
  have hc := covering_ppu s n h0 h
  have e : (n - 0x2000) % 8 = n % 8 := by omega
  have hs : n - 0x2000 < 0x2000 := by omega
  rw [readTarget_of_covering hc hs, writeTarget_of_covering hc hs]
  simp [Region.readTarget, Region.writeTarget, Region.size, e]

theorem cpuTargets_io (s : State) (n : Nat) (h0 : 0x4000 ≤ n) (h : n < 0x4018) :
    AddressSpace.readTarget (cpuSpace s) n = some (.port .io (n - 0x4000)) ∧
    AddressSpace.writeTarget (cpuSpace s) n = some (.port .io (n - 0x4000)) := by
  have hc := covering_io s n h0 h
  have hs : n - 0x4000 < 0x18 := by omega
  rw [readTarget_of_covering hc hs, writeTarget_of_covering hc hs]
  exact ⟨rfl, rfl⟩

theorem cpuTargets_unlisted (s : State) (n : Nat) (h0 : 0x4018 ≤ n) (h : n < 0x6000) :
    AddressSpace.readTarget (cpuSpace s) n = (if s.params.unlistedIo = .zero then some .void else none) ∧
    AddressSpace.writeTarget (cpuSpace s) n = (if s.params.unlistedIo = .zero then some .void else none) := by
  have hc := covering_unlisted s n h0 h
  by_cases hu : s.params.unlistedIo = .zero
  · rw [if_pos hu] at hc ⊢
    have hs : n - 0x4018 < 0x1FE8 := by omega
    rw [readTarget_of_covering hc hs, writeTarget_of_covering hc hs]
    exact ⟨rfl, rfl⟩
  · rw [if_neg hu] at hc ⊢
    have hs : ¬ n - 0x4000 < 0x18 := by omega
    simp [AddressSpace.readTarget, AddressSpace.writeTarget, hc, Region.size, hs]

theorem cpuTargets_cart (s : State) (n : Nat) (h0 : 0x6000 ≤ n) (h : n < 0x8000) :
    AddressSpace.readTarget (cpuSpace s) n = some (.cell .cartRam (n - 0x6000)) ∧
    AddressSpace.writeTarget (cpuSpace s) n = some (.cell .cartRam (n - 0x6000)) := by
  have hc := covering_cart s n h0 h
  have hs : n - 0x6000 < 0x2000 := by omega
  rw [readTarget_of_covering hc hs, writeTarget_of_covering hc hs]
  simp [Region.readTarget, Region.writeTarget]

theorem cpuTargets_prg (s : State) (n : Nat) (h0 : 0x8000 ≤ n) (h : n < 0x10000) :
    AddressSpace.readTarget (cpuSpace s) n = some (.cell .prg (prgUnit s ((n - 0x8000) / 0x2000) * 0x2000 + n % 0x2000)) ∧
    AddressSpace.writeTarget (cpuSpace s) n = some (.port .mapper n) := by
  have hc := covering_prg s n ((n - 0x8000) / 0x2000) (by omega) (by omega) (by omega)
  have hs : n - (0x8000 + (n - 0x8000) / 0x2000 * 0x2000) < 0x2000 := by omega
  have e : n - (0x8000 + (n - 0x8000) / 0x2000 * 0x2000) = n % 0x2000 := by omega
  have e' : n % 0x2000 + (0x8000 + (n - 0x8000) / 0x2000 * 0x2000) = n := by omega
  rw [readTarget_of_covering hc hs, writeTarget_of_covering hc hs]
  simp [Region.readTarget, Region.writeTarget, e, e']

/-- Which of the six ranges of the CPU map an address is in. -/
theorem cpuRange_cases (a : Word) :
    a.toNat < 0x2000 ∨ (0x2000 ≤ a.toNat ∧ a.toNat < 0x4000) ∨ (0x4000 ≤ a.toNat ∧ a.toNat < 0x4018) ∨
    (0x4018 ≤ a.toNat ∧ a.toNat < 0x6000) ∨ (0x6000 ≤ a.toNat ∧ a.toNat < 0x8000) ∨ 0x8000 ≤ a.toNat := by omega

/-! ## `readByte` -/

theorem readByte_ram {a : Word} (s : State) (h : a.toNat < 0x2000) :
    readByte a s = .ok (s.ram.read (a.toNat % 0x800)) s := by
  simp [readByte, (cpuTargets_ram s a.toNat h).1, State.cellAt, State.store]

theorem readByte_ppu {a : Word} (s : State) (h0 : 0x2000 ≤ a.toNat) (h : a.toNat < 0x4000) :
    readByte a s = .ok (ppuReadRegister (a.toNat % 8) s).1 (ppuReadRegister (a.toNat % 8) s).2 := by
  simp [readByte, (cpuTargets_ppu s a.toNat h0 h).1]

theorem readByte_io {a : Word} (s : State) (h0 : 0x4000 ≤ a.toNat) (h : a.toNat < 0x4018) :
    readByte a s = .ok (ioRead (a.toNat - 0x4000) s).1 (ioRead (a.toNat - 0x4000) s).2 := by
  simp [readByte, (cpuTargets_io s a.toNat h0 h).1]

theorem readByte_unmapped {a : Word} (s : State) (hu : s.params.unlistedIo = .fault) (h0 : 0x4018 ≤ a.toNat) (h : a.toNat < 0x6000) :
    readByte a s = .fault (.unmappedAddress .cpu a.toNat) := by
  simp [readByte, (cpuTargets_unlisted s a.toNat h0 h).1, hu]

theorem readByte_zeros {a : Word} (s : State) (hu : s.params.unlistedIo = .zero) (h0 : 0x4018 ≤ a.toNat) (h : a.toNat < 0x6000) :
    readByte a s = .ok 0 s := by
  simp [readByte, (cpuTargets_unlisted s a.toNat h0 h).1, hu]

theorem readByte_cart {a : Word} (s : State) (h0 : 0x6000 ≤ a.toNat) (h : a.toNat < 0x8000) :
    readByte a s = .ok (s.cartRam.read (a.toNat - 0x6000)) s := by
  simp [readByte, (cpuTargets_cart s a.toNat h0 h).1, State.cellAt, State.store]

theorem readByte_prg {a : Word} (s : State) (h0 : 0x8000 ≤ a.toNat) :
    readByte a s = .ok (s.rom.prg.read (prgUnit s ((a.toNat - 0x8000) / 0x2000) * 0x2000 + a.toNat % 0x2000)) s := by
  simp [readByte, (cpuTargets_prg s a.toNat h0 a.isLt).1, State.cellAt, State.store]

/-- A read faults exactly at an address no region covers. -/
theorem readByte_ok_iff_mapped (a : Word) (s : State) : (∃ v s', readByte a s = .ok v s') ↔ Mapped s a := by
  unfold Mapped
  rcases cpuRange_cases a with h | ⟨h0, h⟩ | ⟨h0, h⟩ | ⟨h0, h⟩ | ⟨h0, h⟩ | h
  · rw [readByte_ram s h]; exact ⟨fun _ => by omega, fun _ => ⟨_, _, rfl⟩⟩
  · rw [readByte_ppu s h0 h]; exact ⟨fun _ => by omega, fun _ => ⟨_, _, rfl⟩⟩
  · rw [readByte_io s h0 h]; exact ⟨fun _ => by omega, fun _ => ⟨_, _, rfl⟩⟩
  · cases hu : s.params.unlistedIo
    · rw [readByte_unmapped s hu h0 h]
      refine ⟨fun ⟨v, s', e⟩ => by simp at e, fun e => ?_⟩
      rcases e with e | e | e
      · simp at e
      · omega
      · omega
    · rw [readByte_zeros s hu h0 h]; exact ⟨fun _ => .inl rfl, fun _ => ⟨_, _, rfl⟩⟩
  · rw [readByte_cart s h0 h]; exact ⟨fun _ => by omega, fun _ => ⟨_, _, rfl⟩⟩
  · rw [readByte_prg s h]; exact ⟨fun _ => by omega, fun _ => ⟨_, _, rfl⟩⟩

/-- A read outside every region faults with its address. -/
theorem readByte_of_not_mapped {a : Word} {s : State} (h : ¬ Mapped s a) : readByte a s = .fault (.unmappedAddress .cpu a.toNat) := by
  simp only [Mapped, not_or, Nat.not_lt, Nat.not_le] at h
  refine readByte_unmapped s ?_ h.2.1 h.2.2
  cases e : s.params.unlistedIo
  · rfl
  · exact absurd e h.1

/-! ## `peek` -/

theorem peek_ram {a : Word} (s : State) (h : a.toNat < 0x2000) : peek s a = some (s.ram.read (a.toNat % 0x800)) := by
  simp [peek, (cpuTargets_ram s a.toNat h).1, State.cellAt, State.store]

theorem peek_device {a : Word} (s : State) (h0 : 0x2000 ≤ a.toNat) (h : a.toNat < 0x4018) : peek s a = none := by
  rcases (by omega : a.toNat < 0x4000 ∨ 0x4000 ≤ a.toNat) with h1 | h1
  · simp [peek, (cpuTargets_ppu s a.toNat h0 h1).1]
  · simp [peek, (cpuTargets_io s a.toNat h1 h).1]

theorem peek_unlisted {a : Word} (s : State) (h0 : 0x4018 ≤ a.toNat) (h : a.toNat < 0x6000) : peek s a = none := by
  cases hu : s.params.unlistedIo <;> simp [peek, (cpuTargets_unlisted s a.toNat h0 h).1, hu]

theorem peek_cart {a : Word} (s : State) (h0 : 0x6000 ≤ a.toNat) (h : a.toNat < 0x8000) :
    peek s a = some (s.cartRam.read (a.toNat - 0x6000)) := by
  simp [peek, (cpuTargets_cart s a.toNat h0 h).1, State.cellAt, State.store]

theorem peek_prg {a : Word} (s : State) (h0 : 0x8000 ≤ a.toNat) :
    peek s a = some (s.rom.prg.read (prgUnit s ((a.toNat - 0x8000) / 0x2000) * 0x2000 + a.toNat % 0x2000)) := by
  simp [peek, (cpuTargets_prg s a.toNat h0 a.isLt).1, State.cellAt, State.store]

/-- Where `peek` finds a byte, a read gives that byte and changes nothing. -/
theorem readByte_of_peek {a : Word} {s : State} {b : Byte} (h : peek s a = some b) : readByte a s = .ok b s := by
  rcases cpuRange_cases a with h1 | ⟨h0, h1⟩ | ⟨h0, h1⟩ | ⟨h0, h1⟩ | ⟨h0, h1⟩ | h1
  · rw [peek_ram s h1] at h; rw [readByte_ram s h1, Option.some.inj h]
  · rw [peek_device s h0 (by omega)] at h; simp at h
  · rw [peek_device s (by omega) h1] at h; simp at h
  · rw [peek_unlisted s h0 h1] at h; simp at h
  · rw [peek_cart s h0 h1] at h; rw [readByte_cart s h0 h1, Option.some.inj h]
  · rw [peek_prg s h1] at h; rw [readByte_prg s h1, Option.some.inj h]

/-- `peek` depends on RAM, cartridge RAM, the ROM image and the mapper only. -/
theorem peek_congr {s t : State} (hr : t.ram = s.ram) (hc : t.cartRam = s.cartRam) (hrom : t.rom = s.rom) (hm : t.mapper = s.mapper)
    (a : Word) : peek t a = peek s a := by
  rcases cpuRange_cases a with h1 | ⟨h0, h1⟩ | ⟨h0, h1⟩ | ⟨h0, h1⟩ | ⟨h0, h1⟩ | h1
  · rw [peek_ram s h1, peek_ram t h1, hr]
  · rw [peek_device s h0 (by omega), peek_device t h0 (by omega)]
  · rw [peek_device s (by omega) h1, peek_device t (by omega) h1]
  · rw [peek_unlisted s h0 h1, peek_unlisted t h0 h1]
  · rw [peek_cart s h0 h1, peek_cart t h0 h1, hc]
  · rw [peek_prg s h1, peek_prg t h1, hrom]
    simp [prgUnit, hrom, hm]

/-! ## `writeByte` -/

theorem writeByte_ram {a : Word} (b : Byte) (s : State) (h : a.toNat < 0x2000) :
    writeByte a b s = .ok () { s with ram := s.ram.write (a.toNat % 0x800) b } := by
  simp [writeByte, (cpuTargets_ram s a.toNat h).2, State.setCell]

theorem writeByte_ppu {a : Word} (b : Byte) (s : State) (h0 : 0x2000 ≤ a.toNat) (h : a.toNat < 0x4000) :
    writeByte a b s = .ok () (ppuWriteRegister (a.toNat % 8) b s) := by
  simp [writeByte, (cpuTargets_ppu s a.toNat h0 h).2]

theorem writeByte_io {a : Word} (b : Byte) (s : State) (h0 : 0x4000 ≤ a.toNat) (h : a.toNat < 0x4018) :
    writeByte a b s = ioWrite (a.toNat - 0x4000) b s := by
  simp [writeByte, (cpuTargets_io s a.toNat h0 h).2]

theorem writeByte_unmapped {a : Word} (b : Byte) (s : State) (hu : s.params.unlistedIo = .fault) (h0 : 0x4018 ≤ a.toNat)
    (h : a.toNat < 0x6000) : writeByte a b s = .fault (.unmappedAddress .cpu a.toNat) := by
  simp [writeByte, (cpuTargets_unlisted s a.toNat h0 h).2, hu]

theorem writeByte_zeros {a : Word} (b : Byte) (s : State) (hu : s.params.unlistedIo = .zero) (h0 : 0x4018 ≤ a.toNat)
    (h : a.toNat < 0x6000) : writeByte a b s = .ok () s := by
  simp [writeByte, (cpuTargets_unlisted s a.toNat h0 h).2, hu]

theorem writeByte_cart {a : Word} (b : Byte) (s : State) (h0 : 0x6000 ≤ a.toNat) (h : a.toNat < 0x8000) :
    writeByte a b s = .ok () { s with cartRam := s.cartRam.write (a.toNat - 0x6000) b } := by
  simp [writeByte, (cpuTargets_cart s a.toNat h0 h).2, State.setCell]

theorem writeByte_prg {a : Word} (b : Byte) (s : State) (h0 : 0x8000 ≤ a.toNat) :
    writeByte a b s = .ok () (mapperWrite a b s) := by
  simp [writeByte, (cpuTargets_prg s a.toNat h0 a.isLt).2]

/-! ## Bytes that are always memory (log 12) -/

/-- Page zero is read straight from RAM, as `MemRead` would. -/
theorem zeroPage_readByte (s : State) (z : Byte) : readByte (z.setWidth 16) s = .ok (zeroPage s z) s := by
  have e : (BitVec.setWidth 16 z).toNat = z.toNat := by simp; omega
  have h : (BitVec.setWidth 16 z).toNat < 0x2000 := by omega
  rw [readByte_ram s h, e, Nat.mod_eq_of_lt (by omega)]
  rfl

/-- The CPU address of a stack slot, `$0100 | SP` (10_state.md R23). -/
theorem stackAddress_toNat (sp : Byte) : (0x0100 ||| sp.setWidth 16 : Word).toNat = stackIndex sp := by
  revert sp; decide

/-- A push is the store of `MemWrite` at `$0100 | SP`. -/
theorem push_writeByte (b : Byte) (s : State) :
    writeByte (0x0100 ||| s.cpu.sp.setWidth 16) b s = .ok () { s with ram := s.ram.write (stackIndex s.cpu.sp) b } := by
  have h := stackAddress_toNat s.cpu.sp
  have hi : stackIndex s.cpu.sp < 0x800 := by unfold stackIndex; omega
  rw [writeByte_ram b s (by omega), h, Nat.mod_eq_of_lt hi]

/-- A pop reads `$0100 | (SP + 1)` as `MemRead` would. -/
theorem topOfStack_readByte (s : State) :
    readByte (0x0100 ||| (s.cpu.sp + 1).setWidth 16) s = .ok (topOfStack s) s := by
  have h := stackAddress_toNat (s.cpu.sp + 1)
  have hi : stackIndex (s.cpu.sp + 1) < 0x800 := by unfold stackIndex; omega
  rw [readByte_ram s (by omega), h, Nat.mod_eq_of_lt hi]
  rfl

/-- A vector at $8000 or above is read as `Read16` would. -/
theorem vectorAt_readByte (s : State) (a : Word) (h : 0x8000 ≤ a.toNat) (h' : a.toNat < 0xFFFF) :
    ∃ lo hi, readByte a s = .ok lo s ∧ readByte (a + 1) s = .ok hi s ∧ vectorAt s a = wordOf lo hi := by
  have h1 : 0x8000 ≤ (a + 1).toNat := by
    rw [BitVec.toNat_add]
    simp
    omega
  refine ⟨_, _, readByte_prg s h, readByte_prg s h1, ?_⟩
  unfold vectorAt
  rw [peek_prg s h, peek_prg s h1]
  rfl

/-! ## The PPU map -/

/-- Every PPU address is covered: a cell of a store inside its size, or a palette entry (20_memory.md R120; 60_exceptions.md R703). -/
theorem ppuTargets_covered (s : State) (n : Nat) (h : n < 0x4000) :
    (∃ o r, AddressSpace.covering (ppuSpace s) n = some (o, r) ∧ o ≤ n ∧ n - o < r.size) := by
  rcases (by omega : n < 0x400 ∨ (0x400 ≤ n ∧ n < 0x800) ∨ (0x800 ≤ n ∧ n < 0xC00) ∨ (0xC00 ≤ n ∧ n < 0x1000) ∨
    (0x1000 ≤ n ∧ n < 0x1400) ∨ (0x1400 ≤ n ∧ n < 0x1800) ∨ (0x1800 ≤ n ∧ n < 0x1C00) ∨ (0x1C00 ≤ n ∧ n < 0x2000) ∨
    (0x2000 ≤ n ∧ n < 0x2400) ∨ (0x2400 ≤ n ∧ n < 0x2800) ∨ (0x2800 ≤ n ∧ n < 0x2C00) ∨ (0x2C00 ≤ n ∧ n < 0x3000) ∨
    (0x3000 ≤ n ∧ n < 0x3400) ∨ (0x3400 ≤ n ∧ n < 0x3800) ∨ (0x3800 ≤ n ∧ n < 0x3C00) ∨ (0x3C00 ≤ n ∧ n < 0x3F00) ∨ 0x3F00 ≤ n) with
    h | h | h | h | h | h | h | h | h | h | h | h | h | h | h | h | h <;>
  · simp (disch := omega) only [ppuSpace, chrSlot, ntSlot, covering_above, covering_below, covering_nil, Option.getD_none,
      Option.getD_some, Option.some.injEq, Prod.mk.injEq]
    refine ⟨_, _, ⟨rfl, rfl⟩, by omega, ?_⟩
    first
      | (simp only [Region.size]; omega)
      | (split <;> simp only [Region.size] <;> omega)

end Sys2Proof.Machine
end

