-- ==== Sys2Proof/Laws/Kept.lean ====
section
/-! SUPPORT. What every shared operation keeps, said once: the session's configuration, the canonical memories, the devices' ranges,
and that cycles never go back. A proof about a whole step composes these and unfolds no operation. -/

namespace Sys2Proof.Machine

/-- What no operation of the machine breaks (`fanOut` alone moves `synced`, as its last act). -/
structure Kept (s t : State) : Prop where
  rom : t.rom = s.rom
  params : t.params = s.params
  irqSources : t.irqSources = s.irqSources
  synced : t.synced = s.synced
  fault : t.fault = s.fault
  scheme : t.mapper.scheme = s.mapper.scheme
  cycles : s.cpu.cycles ≤ t.cpu.cycles
  memories : MemoriesOk s → MemoriesOk t
  ppu : MemoriesOk s → PpuOk s.ppu → PpuOk t.ppu
  apu : ApuOk s.params.frameStepCycles s.apu → ApuOk s.params.frameStepCycles t.apu
  pads : PadsOk s.pads → PadsOk t.pads

theorem Kept.refl (s : State) : Kept s s := ⟨rfl, rfl, rfl, rfl, rfl, rfl, Nat.le_refl _, id, fun _ => id, id, id⟩

theorem Kept.trans {s t u : State} (h : Kept s t) (k : Kept t u) : Kept s u where
  rom := k.rom.trans h.rom
  params := k.params.trans h.params
  irqSources := k.irqSources.trans h.irqSources
  synced := k.synced.trans h.synced
  fault := k.fault.trans h.fault
  scheme := k.scheme.trans h.scheme
  cycles := Nat.le_trans h.cycles k.cycles
  memories := fun m => k.memories (h.memories m)
  ppu := fun m p => k.ppu (h.memories m) (h.ppu m p)
  apu := fun a => by
    have := k.apu (by rw [h.params]; exact h.apu a)
    rwa [h.params] at this
  pads := fun p => k.pads (h.pads p)

/-- An operation that only changes the CPU, never back in time. -/
theorem Kept.ofCpu {s : State} {c : Cpu} (h : s.cpu.cycles ≤ c.cycles) : Kept s { s with cpu := c } :=
  ⟨rfl, rfl, rfl, rfl, rfl, rfl, h, id, fun _ => id, id, id⟩

/-! ## Registers, stack, interrupts -/

theorem kept_setPc (s : State) (w : Word) : Kept s (s.setPc w) := Kept.ofCpu (Nat.le_refl _)
theorem kept_setFlags (s : State) (p : Flags) : Kept s (s.setFlags p) := Kept.ofCpu (Nat.le_refl _)
theorem kept_addCycles (s : State) (n : Nat) : Kept s (s.addCycles n) := Kept.ofCpu (Nat.le_add_right _ _)
theorem kept_advance (s : State) (n : Nat) : Kept s (s.advance n) := Kept.ofCpu (Nat.le_refl _)
theorem kept_setReg (s : State) (r : Reg8) (b : Byte) : Kept s (s.setReg r b) := by
  cases r <;> exact Kept.ofCpu (Nat.le_refl _)
theorem kept_dropTop (s : State) : Kept s (dropTop s) := Kept.ofCpu (Nat.le_refl _)

/-- A write of internal RAM inside its size. -/
theorem kept_ram (s : State) (c : Cpu) (hc : s.cpu.cycles ≤ c.cycles) (i : Nat) (b : Byte) (hi : i < 0x800) :
    Kept s { s with ram := s.ram.write i b, cpu := c } :=
  ⟨rfl, rfl, rfl, rfl, rfl, rfl, hc, fun m => ⟨Memory.wf_write m.1 hi, m.2⟩, fun _ => id, id, id⟩

theorem kept_push (b : Byte) (s : State) : Kept s (push b s) :=
  kept_ram s { s.cpu with sp := s.cpu.sp - 1 } (Nat.le_refl _) (stackIndex s.cpu.sp) b (by unfold stackIndex; omega)

theorem kept_pushWord (w : Word) (s : State) : Kept s (pushWord w s) := (kept_push _ s).trans (kept_push _ _)

theorem kept_interruptEntry (ret : Word) (b i : Bool) (v : Word) (s : State) : Kept s (interruptEntry ret b i v s) := by
  unfold interruptEntry
  dsimp only
  exact (((kept_pushWord ret s).trans (kept_push _ _)).trans (kept_setFlags _ _)).trans (kept_setPc _ _)

theorem kept_serviceIrq (s : State) : Kept s (serviceIrq s) := by
  have k := kept_interruptEntry s.cpu.pc false true irqVector s
  unfold serviceIrq
  generalize interruptEntry s.cpu.pc false true irqVector s = e at k ⊢
  exact k.trans (kept_addCycles _ _)

theorem kept_serviceNmi (s : State) : Kept s (serviceNmi s) := by
  have k := kept_interruptEntry s.cpu.pc false false nmiVector s
  unfold serviceNmi
  generalize interruptEntry s.cpu.pc false false nmiVector s = e at k ⊢
  exact (k.trans (Kept.ofCpu (c := { e.cpu with nmiPending := false }) (Nat.le_refl _))).trans (kept_addCycles _ _)

theorem kept_interruptReturn (s : State) : Kept s (interruptReturn s) := by
  unfold interruptReturn
  dsimp only
  exact ((((kept_dropTop s).trans (kept_setFlags _ _)).trans (kept_dropTop _)).trans (kept_dropTop _)).trans (kept_setPc _ _)

theorem kept_triggerNmi (s : State) : Kept s (triggerNmi s) := by
  unfold triggerNmi
  split <;> exact ⟨rfl, rfl, rfl, rfl, rfl, rfl, Nat.le_refl _, id, fun _ => id, id, id⟩

/-! ## The PPU's registers -/

/-- A change of the PPU that keeps its memories, its place in the frame and the overflow flag. -/
theorem Kept.ofPpu {s : State} {p : Ppu} (ho : p.oam = s.ppu.oam) (hn : p.nt = s.ppu.nt) (hp : p.palette = s.ppu.palette)
    (hf : p.frame = s.ppu.frame) (hs : p.sprSnap = s.ppu.sprSnap) (hc : p.sprCount = s.ppu.sprCount)
    (hl : p.scanline = s.ppu.scanline) (hy : p.cycle = s.ppu.cycle) (hv : p.spriteOverflow = s.ppu.spriteOverflow) :
    Kept s (s.withPpu p) :=
  ⟨rfl, rfl, rfl, rfl, rfl, rfl, Nat.le_refl _,
    fun m => by simp only [MemoriesOk, State.withPpu, ho, hn, hp, hf, hs, hc]; exact m,
    fun _ q => by simp only [PpuOk, State.withPpu, hf, hl, hy, hv]; exact q, id, id⟩

theorem kept_writeOam (s : State) (b : Byte) : Kept s (s.withPpu (s.ppu.writeOam b)) :=
  ⟨rfl, rfl, rfl, rfl, rfl, rfl, Nat.le_refl _,
    fun ⟨m1, m2, m3, m4, m5⟩ => ⟨m1, m2, m3, Memory.wf_write m4 (by have := s.ppu.oamaddr.isLt; omega), m5⟩, fun _ q => q, id, id⟩

theorem kept_nt (s : State) (i : Nat) (b : Byte) (hi : i < 0x1000) : Kept s (s.setCell .nametable i b) :=
  ⟨rfl, rfl, rfl, rfl, rfl, rfl, Nat.le_refl _,
    fun ⟨m1, m2, m3, m4, m5, m6⟩ => ⟨m1, m2, m3, m4, Memory.wf_write m5 hi, m6⟩, fun _ q => q, id, id⟩

theorem kept_chrRam (s : State) (i : Nat) (b : Byte) (hi : i < 0x2000) : Kept s (s.setCell .chrRam i b) :=
  ⟨rfl, rfl, rfl, rfl, rfl, rfl, Nat.le_refl _, fun ⟨m1, m2, m3, m4⟩ => ⟨m1, m2, Memory.wf_write m3 hi, m4⟩, fun _ q => q, id, id⟩

theorem kept_palette (s : State) (i : Nat) (b : Byte) (hi : i < 0x20) :
    Kept s (s.withPpu { s.ppu with palette := s.ppu.palette.write i b }) :=
  ⟨rfl, rfl, rfl, rfl, rfl, rfl, Nat.le_refl _,
    fun ⟨m1, m2, m3, m4, m5, m6, m7⟩ => ⟨m1, m2, m3, m4, m5, Memory.wf_write m6 hi, m7⟩, fun _ q => q, id, id⟩

theorem paletteIndex_lt (n : Nat) : paletteIndex n < 0x20 := by
  unfold paletteIndex
  dsimp only
  split <;> omega

theorem physTable_lt (m : Mirroring) (o : Fin 4) (slot : Nat) (h : slot < 4) : physTable m o slot < 4 := by
  unfold physTable
  split
  · split <;> omega
  · omega
  · exact o.isLt
  · exact h

/-- With CHR RAM, every slot's unit is one of its eight. -/
theorem chrUnit_lt (s : State) (slot : Nat) (hs : slot < 8) (h : s.rom.chrPages = 0) : chrUnit s slot < 8 := by
  unfold chrUnit
  split
  · simp [h]; omega
  · simp [h]; omega
  · simp [chrUnits, h]; omega
  · simp [chrUnits, h]; omega

/-- Where a write of the PPU space goes. -/
theorem ppuWrite_cases (a : Nat) (b : Byte) (s : State) :
    ppuWrite a b s = s ∨ (∃ i, i < 0x1000 ∧ ppuWrite a b s = s.setCell .nametable i b) ∨
    (∃ i, i < 0x2000 ∧ ppuWrite a b s = s.setCell .chrRam i b) ∨
    (∃ i, i < 0x20 ∧ ppuWrite a b s = s.withPpu { s.ppu with palette := s.ppu.palette.write i b }) := by
  unfold ppuWrite
  have hn : a % 0x4000 < 0x4000 := Nat.mod_lt _ (by decide)
  generalize a % 0x4000 = n at hn ⊢
  obtain ⟨o, r, hc, ho, hsz⟩ := ppuTargets_covered s n hn
  rw [writeTarget_of_covering hc hsz]
  have hmem : (o, r) ∈ ppuSpace s := by
    have key : ∀ (sp : AddressSpace PpuPort) (q : Nat × Region PpuPort), AddressSpace.covering sp n = some q → q ∈ sp := by
      intro sp
      induction sp with
      | nil => intro q h; simp [AddressSpace.covering] at h
      | cons c sp ih =>
        obtain ⟨k, g⟩ := c
        intro q h
        simp only [AddressSpace.covering] at h
        split at h
        · simp at h
        · split at h
          · rename_i q' hq'
            have := Option.some.inj h
            exact List.mem_cons_of_mem _ (ih _ (this ▸ hq'))
          · have := Option.some.inj h
            exact this ▸ List.mem_cons_self ..
    exact key _ _ hc
  have hchr : ∀ slot, slot < 8 → (o, r) = chrSlot s slot →
      (∃ k, k < 8 ∧ r = .array .chrRam (k * 0x400) 0x400) ∨ (∃ k, r = .readOnly .chrRom k 0x400) := by
    intro slot hs h
    have h2 : r = (chrSlot s slot).2 := by rw [← h]
    unfold chrSlot at h2
    by_cases hz : s.rom.chrPages = 0
    · exact .inl ⟨chrUnit s slot, chrUnit_lt s slot hs hz, by simpa [hz] using h2⟩
    · exact .inr ⟨chrUnit s slot * 0x400, by simpa [hz] using h2⟩
  have hnt : ∀ off slot size, slot < 4 → size ≤ 0x400 → (o, r) = ntSlot s off slot size →
      ∃ k z, k < 4 ∧ z ≤ 0x400 ∧ r = .array .nametable (k * 0x400) z := by
    intro off slot size hs hz h
    exact ⟨_, size, physTable_lt s.ppu.mirroring s.params.oneScreenTable slot hs, hz, by
      have h2 : r = (ntSlot s off slot size).2 := by rw [← h]
      simpa [ntSlot] using h2⟩
  have hr : (∃ k, k < 8 ∧ r = .array .chrRam (k * 0x400) 0x400) ∨ (∃ k, r = .readOnly .chrRom k 0x400) ∨
      (∃ k z, k < 4 ∧ z ≤ 0x400 ∧ r = .array .nametable (k * 0x400) z) ∨ r = .mirror 0x100 0 (.port .palette 0x20) := by
    simp only [ppuSpace, List.mem_cons, List.not_mem_nil, or_false] at hmem
    rcases hmem with h | h | h | h | h | h | h | h | h | h | h | h | h | h | h | h | h
    · rcases hchr 0 (by decide) h with h | h; exacts [.inl h, .inr (.inl h)]
    · rcases hchr 1 (by decide) h with h | h; exacts [.inl h, .inr (.inl h)]
    · rcases hchr 2 (by decide) h with h | h; exacts [.inl h, .inr (.inl h)]
    · rcases hchr 3 (by decide) h with h | h; exacts [.inl h, .inr (.inl h)]
    · rcases hchr 4 (by decide) h with h | h; exacts [.inl h, .inr (.inl h)]
    · rcases hchr 5 (by decide) h with h | h; exacts [.inl h, .inr (.inl h)]
    · rcases hchr 6 (by decide) h with h | h; exacts [.inl h, .inr (.inl h)]
    · rcases hchr 7 (by decide) h with h | h; exacts [.inl h, .inr (.inl h)]
    · exact .inr (.inr (.inl (hnt _ _ _ (by decide) (by decide) h)))
    · exact .inr (.inr (.inl (hnt _ _ _ (by decide) (by decide) h)))
    · exact .inr (.inr (.inl (hnt _ _ _ (by decide) (by decide) h)))
    · exact .inr (.inr (.inl (hnt _ _ _ (by decide) (by decide) h)))
    · exact .inr (.inr (.inl (hnt _ _ _ (by decide) (by decide) h)))
    · exact .inr (.inr (.inl (hnt _ _ _ (by decide) (by decide) h)))
    · exact .inr (.inr (.inl (hnt _ _ _ (by decide) (by decide) h)))
    · exact .inr (.inr (.inl (hnt _ _ _ (by decide) (by decide) h)))
    · exact .inr (.inr (.inr (by simpa using (Prod.mk.inj h).2)))
  rcases hr with ⟨k, hk, rfl⟩ | ⟨k, rfl⟩ | ⟨k, z, hk, hz, rfl⟩ | rfl
  · simp only [Region.size] at hsz
    exact .inr (.inr (.inl ⟨_, by omega, rfl⟩))
  · exact .inl rfl
  · simp only [Region.size] at hsz
    exact .inr (.inl ⟨_, by omega, rfl⟩)
  · exact .inr (.inr (.inr ⟨_, paletteIndex_lt _, rfl⟩))

theorem kept_ppuWrite (a : Nat) (b : Byte) (s : State) : Kept s (ppuWrite a b s) := by
  rcases ppuWrite_cases a b s with h | ⟨i, hi, h⟩ | ⟨i, hi, h⟩ | ⟨i, hi, h⟩ <;> rw [h]
  · exact Kept.refl s
  · exact kept_nt s i b hi
  · exact kept_chrRam s i b hi
  · exact kept_palette s i b hi

theorem kept_ppuWriteRegister (i : Nat) (b : Byte) (s : State) : Kept s (ppuWriteRegister i b s) := by
  unfold ppuWriteRegister
  split
  · exact Kept.ofPpu rfl rfl rfl rfl rfl rfl rfl rfl rfl
  · exact Kept.ofPpu rfl rfl rfl rfl rfl rfl rfl rfl rfl
  · exact Kept.ofPpu rfl rfl rfl rfl rfl rfl rfl rfl rfl
  · exact kept_writeOam s b
  · unfold Ppu.writeScroll
    split <;> exact Kept.ofPpu rfl rfl rfl rfl rfl rfl rfl rfl rfl
  · unfold Ppu.writeAddr
    split <;> exact Kept.ofPpu rfl rfl rfl rfl rfl rfl rfl rfl rfl
  · exact (kept_ppuWrite _ b s).trans (Kept.ofPpu rfl rfl rfl rfl rfl rfl rfl rfl rfl)
  · exact Kept.refl s

theorem kept_ppuReadRegister (i : Nat) (s : State) : Kept s (ppuReadRegister i s).2 := by
  unfold ppuReadRegister
  split
  · exact Kept.ofPpu rfl rfl rfl rfl rfl rfl rfl rfl rfl
  · exact Kept.refl s
  · unfold readVramData
    dsimp only
    split <;> exact Kept.ofPpu rfl rfl rfl rfl rfl rfl rfl rfl rfl
  · exact Kept.refl s

/-! ## The APU's registers -/

/-- A change of the APU that keeps its ranges. -/
theorem Kept.ofApu {s : State} {u : Apu}
    (h : ApuOk s.params.frameStepCycles s.apu → ApuOk s.params.frameStepCycles u) : Kept s { s with apu := u } :=
  ⟨rfl, rfl, rfl, rfl, rfl, rfl, Nat.le_refl _, id, fun _ => id, h, id⟩

theorem lengthTable_le (i : BitVec 5) : (lengthTable i).toNat ≤ 254 := by revert i; decide

theorem lengthLoad_le (e : Bool) (l v : Byte) (h : l.toNat ≤ 254) : (lengthLoad e l v).toNat ≤ 254 := by
  unfold lengthLoad
  split
  · exact lengthTable_le _
  · exact h

theorem lengthClock_le (e : Bool) (l : Byte) (h : l.toNat ≤ 254) : (lengthClock e l).toNat ≤ 254 := by
  revert e l; decide

theorem restart_ok (c : Dmc) : 0x8000 ≤ c.restart.curAddr.toNat ∧ c.restart.bytesRem.toNat ≤ 4081 ∧
    c.restart.bitsRem = c.bitsRem := by
  have h1 : ∀ b : Byte, 0x8000 ≤ (0xC000 + BitVec.setWidth 16 b * 64 : Word).toNat := by decide
  have h2 : ∀ b : Byte, (BitVec.setWidth 12 b * 16 + 1 : BitVec 12).toNat ≤ 4081 := by decide
  exact ⟨h1 _, h2 _, rfl⟩

theorem dmcEnable_ok (c : Dmc) (on : Bool) (ha : 0x8000 ≤ c.curAddr.toNat) (hb : c.bytesRem.toNat ≤ 4081) :
    0x8000 ≤ (c.enable on).curAddr.toNat ∧ (c.enable on).bytesRem.toNat ≤ 4081 ∧ (c.enable on).bitsRem = c.bitsRem := by
  unfold Dmc.enable
  dsimp only
  split
  · exact ⟨ha, by simp, rfl⟩
  · split
    · exact restart_ok _
    · exact ⟨ha, hb, rfl⟩

theorem length_if_le (on : Bool) (l : Byte) (h : l.toNat ≤ 254) : (if on then l else 0).toNat ≤ 254 := by
  cases on
  · simp
  · exact h

theorem sweepClock_length (c : Pulse) (first : Bool) : (c.sweepClock first).length = c.length := by
  unfold Pulse.sweepClock
  dsimp only
  split <;> rfl

theorem apuOk_quarter (f : FrameSteps) (u : Apu) (h : ApuOk f u) : ApuOk f u.quarter := h

theorem apuOk_halfFrame (f : FrameSteps) (u : Apu) (h : ApuOk f u) : ApuOk f u.halfFrame := by
  obtain ⟨h1, h2, h3, h4, h5, h6, h7, h8, h9, h10⟩ := h
  refine ⟨h1, h2, h3, h4, h5, h6, ?_, ?_, lengthClock_le _ _ h9, lengthClock_le _ _ h10⟩
  · show (Pulse.sweepClock _ true).length.toNat ≤ 254
    rw [sweepClock_length]; exact lengthClock_le _ _ h7
  · show (Pulse.sweepClock _ false).length.toNat ≤ 254
    rw [sweepClock_length]; exact lengthClock_le _ _ h8

theorem pulseWrite_length (c : Pulse) (i : Nat) (v : Byte) (h : c.length.toNat ≤ 254) : (c.write i v).length.toNat ≤ 254 := by
  unfold Pulse.write
  split
  · exact h
  · exact h
  · exact h
  · exact lengthLoad_le _ _ _ h

theorem triangleWrite_length (c : Triangle) (i : Nat) (v : Byte) (h : c.length.toNat ≤ 254) : (c.write i v).length.toNat ≤ 254 := by
  unfold Triangle.write
  split
  · exact h
  · exact h
  · exact h
  · exact lengthLoad_le _ _ _ h

theorem noiseWrite_ok (c : Noise) (i : Nat) (v : Byte) (h : c.length.toNat ≤ 254) :
    (c.write i v).length.toNat ≤ 254 ∧ (c.write i v).lfsr = c.lfsr := by
  unfold Noise.write
  split
  · exact ⟨h, rfl⟩
  · exact ⟨h, rfl⟩
  · exact ⟨h, rfl⟩
  · exact ⟨lengthLoad_le _ _ _ h, rfl⟩

theorem dmcWrite_ok (c : Dmc) (i : Nat) (v : Byte) : (c.write i v).curAddr = c.curAddr ∧ (c.write i v).bytesRem = c.bytesRem ∧
    (c.write i v).bitsRem = c.bitsRem := by
  unfold Dmc.write
  split <;> exact ⟨rfl, rfl, rfl⟩

theorem apuOk_writeFrameCounter (f : FrameSteps) (u : Apu) (v : Byte) (h : ApuOk f u) : ApuOk f (u.writeFrameCounter v) := by
  have hb : ∀ m i q, ApuOk f { u with fmode := m, irqInhibit := i, frameIrq := q, fc := 0 } :=
    fun _ _ _ => ⟨Nat.zero_le _, h.2⟩
  unfold Apu.writeFrameCounter
  dsimp only
  split
  · exact apuOk_halfFrame f _ (apuOk_quarter f _ (hb _ _ _))
  · exact hb _ _ _

theorem apuOk_writeRegister (f : FrameSteps) (u : Apu) (i : Nat) (v : Byte) (h : ApuOk f u) : ApuOk f (u.writeRegister i v) := by
  obtain ⟨h1, h2, h3, h4, h5, h6, h7, h8, h9, h10⟩ := h
  unfold Apu.writeRegister
  split
  · exact ⟨h1, h2, h3, h4, h5, h6, pulseWrite_length _ _ _ h7, h8, h9, h10⟩
  · split
    · exact ⟨h1, h2, h3, h4, h5, h6, h7, pulseWrite_length _ _ _ h8, h9, h10⟩
    · split
      · exact ⟨h1, h2, h3, h4, h5, h6, h7, h8, triangleWrite_length _ _ _ h9, h10⟩
      · split
        · have hn := noiseWrite_ok u.noise (i - 0x0C) v h10
          exact ⟨h1, by show Noise.lfsr _ ≠ 0; rw [hn.2]; exact h2, h3, h4, h5, h6, h7, h8, h9, hn.1⟩
        · split
          · have hd := dmcWrite_ok u.dmc (i - 0x10) v
            exact ⟨h1, h2, by show _ ≤ (Dmc.curAddr _).toNat; rw [hd.1]; exact h3,
              by show (Dmc.bytesRem _).toNat ≤ _; rw [hd.2.1]; exact h4,
              by show _ ≤ (Dmc.bitsRem _).toNat; rw [hd.2.2]; exact h5,
              by show (Dmc.bitsRem _).toNat ≤ _; rw [hd.2.2]; exact h6, h7, h8, h9, h10⟩
          · split
            · have hd := dmcEnable_ok u.dmc (v.getLsbD 4) h3 h4
              exact ⟨h1, h2, hd.1, hd.2.1,
                by show 1 ≤ (u.dmc.enable (v.getLsbD 4)).bitsRem.toNat; rw [hd.2.2]; exact h5,
                by show (u.dmc.enable (v.getLsbD 4)).bitsRem.toNat ≤ 8; rw [hd.2.2]; exact h6,
                length_if_le _ _ h7, length_if_le _ _ h8, length_if_le _ _ h9, length_if_le _ _ h10⟩
            · split
              · exact apuOk_writeFrameCounter f u v ⟨h1, h2, h3, h4, h5, h6, h7, h8, h9, h10⟩
              · exact ⟨h1, h2, h3, h4, h5, h6, h7, h8, h9, h10⟩

/-! ## The controllers -/

theorem serialRead_index (e st : Bool) (b : Buttons) (i : Nat) (h : i ≤ 8) : (serialRead e st b i).2 ≤ 8 := by
  unfold serialRead
  split
  · exact h
  · split
    · simp only; omega
    · exact h

theorem kept_ioRead (i : Nat) (s : State) : Kept s (ioRead i s).2 := by
  unfold ioRead
  split
  · exact Kept.ofApu (fun h => h)
  · exact ⟨rfl, rfl, rfl, rfl, rfl, rfl, Nat.le_refl _, id, fun _ => id, id, fun h => ⟨serialRead_index _ _ _ _ h.1, h.2⟩⟩
  · exact ⟨rfl, rfl, rfl, rfl, rfl, rfl, Nat.le_refl _, id, fun _ => id, id, fun h => ⟨h.1, serialRead_index _ _ _ _ h.2⟩⟩
  · exact Kept.refl s

/-! ## The mapper -/

theorem kept_applyMirrorBit (b : Bool) (s : State) : Kept s (applyMirrorBit b s) := by
  unfold applyMirrorBit
  split
  · exact Kept.refl s
  · exact Kept.ofPpu rfl rfl rfl rfl rfl rfl rfl rfl rfl

theorem Kept.ofMapper {s : State} {m : Mapper} (h : m.scheme = s.mapper.scheme) : Kept s { s with mapper := m } :=
  ⟨rfl, rfl, rfl, rfl, rfl, h, Nat.le_refl _, id, fun _ => id, id, id⟩

theorem dualWrite_variant (d : DualBank) (a : Word) (v : Byte) : (d.write a v).variantA = d.variantA := by
  unfold DualBank.write DualBank.writeChr
  split
  · rfl
  · rfl
  · rfl
  · split <;> rfl
  · split <;> rfl
  · split <;> rfl
  · split <;> rfl
  · rfl

theorem kept_mapperWrite (a : Word) (v : Byte) (s : State) : Kept s (mapperWrite a v s) := by
  unfold mapperWrite
  split
  · exact Kept.refl s
  · rename_i h
    exact Kept.ofMapper (by rw [h]; rfl)
  · rename_i r h
    have k : Kept s { s with mapper := .eightReg (r.write a v) } := Kept.ofMapper (by rw [h]; rfl)
    dsimp only
    split
    · exact k.trans (kept_applyMirrorBit _ _)
    · exact k
  · rename_i d h
    have k : Kept s { s with mapper := .dual (d.write a v) } :=
      Kept.ofMapper (by rw [h]; simp [Mapper.scheme, dualWrite_variant])
    dsimp only
    split
    · exact k.trans (kept_applyMirrorBit _ _)
    · exact k

theorem kept_mapperCycle (s : State) : Kept s (mapperCycle s) := by
  unfold mapperCycle
  split
  · rename_i r h
    split
    · exact Kept.ofMapper (by rw [h]; rfl)
    · exact Kept.refl s
  · exact Kept.refl s

/-! ## One-byte accesses -/

theorem kept_readByte {a : Word} {s s' : State} {v : Byte} (h : readByte a s = .ok v s') : Kept s s' := by
  unfold readByte at h
  split at h
  · simp at h
  · obtain ⟨-, rfl⟩ := Access.ok.inj h; exact Kept.refl s
  · obtain ⟨-, rfl⟩ := Access.ok.inj h; exact kept_ppuReadRegister _ s
  · obtain ⟨-, rfl⟩ := Access.ok.inj h; exact kept_ioRead _ s
  · obtain ⟨-, rfl⟩ := Access.ok.inj h; exact Kept.refl s
  · obtain ⟨-, rfl⟩ := Access.ok.inj h; exact Kept.refl s

theorem kept_oamCopy {p : Byte} {n i : Nat} {s s' : State} (h : oamCopy p i n s = .ok () s') : Kept s s' := by
  induction n generalizing i s with
  | zero => obtain ⟨-, rfl⟩ := Access.ok.inj h; exact Kept.refl s
  | succ n ih =>
    simp only [oamCopy] at h
    split at h
    · simp at h
    · rename_i hr
      exact ((kept_readByte hr).trans (kept_writeOam _ _)).trans (ih h)

theorem kept_oamDma {p : Byte} {s s' : State} (h : oamDma p s = .ok () s') : Kept s s' := by
  unfold oamDma at h
  split at h
  · simp at h
  · rename_i hc
    obtain ⟨-, rfl⟩ := Access.ok.inj h
    exact (kept_oamCopy hc).trans (kept_addCycles _ _)

theorem kept_ioWrite {i : Nat} {b : Byte} {s s' : State} (h : ioWrite i b s = .ok () s') : Kept s s' := by
  unfold ioWrite at h
  split at h
  · exact kept_oamDma h
  · split at h
    · obtain ⟨-, rfl⟩ := Access.ok.inj h
      refine ⟨rfl, rfl, rfl, rfl, rfl, rfl, Nat.le_refl _, id, fun _ => id, id, fun hp => ?_⟩
      show PadsOk (Controllers.writeStrobe _ _)
      unfold Controllers.writeStrobe
      split
      · exact ⟨Nat.zero_le _, Nat.zero_le _⟩
      · exact hp
    · obtain ⟨-, rfl⟩ := Access.ok.inj h
      exact Kept.ofApu (apuOk_writeRegister _ _ _ _)

theorem kept_writeByte {a : Word} {b : Byte} {s s' : State} (h : writeByte a b s = .ok () s') : Kept s s' := by
  rcases cpuRange_cases a with h1 | ⟨h0, h1⟩ | ⟨h0, h1⟩ | ⟨h0, h1⟩ | ⟨h0, h1⟩ | h1
  · rw [writeByte_ram b s h1] at h
    obtain ⟨-, rfl⟩ := Access.ok.inj h
    exact kept_ram s s.cpu (Nat.le_refl _) _ b (Nat.mod_lt _ (by decide))
  · rw [writeByte_ppu b s h0 h1] at h
    obtain ⟨-, rfl⟩ := Access.ok.inj h
    exact kept_ppuWriteRegister _ b s
  · rw [writeByte_io b s h0 h1] at h
    exact kept_ioWrite h
  · cases hu : s.params.unlistedIo
    · rw [writeByte_unmapped b s hu h0 h1] at h; simp at h
    · rw [writeByte_zeros b s hu h0 h1] at h
      obtain ⟨-, rfl⟩ := Access.ok.inj h
      exact Kept.refl s
  · rw [writeByte_cart b s h0 h1] at h
    obtain ⟨-, rfl⟩ := Access.ok.inj h
    exact ⟨rfl, rfl, rfl, rfl, rfl, rfl, Nat.le_refl _, fun m => ⟨m.1, Memory.wf_write m.2.1 (by omega), m.2.2⟩, fun _ => id, id, id⟩
  · rw [writeByte_prg b s h1] at h
    obtain ⟨-, rfl⟩ := Access.ok.inj h
    exact kept_mapperWrite a b s

/-! ## The shapes of instructions -/

theorem kept_reading {src : Source} {len base : Nat} {f : Byte → State → State} {s t : State}
    (hf : ∀ v u, Kept u (f v u)) (h : reading src len base f s = .next t) : Kept s t := by
  unfold reading at h
  split at h
  · simp at h
  · rename_i v s' hr
    obtain rfl := Host.Outcome.next.inj h
    have k : Kept (s.advance len) s' := by
      cases src with
      | imm v' => obtain ⟨-, rfl⟩ := Access.ok.inj hr; exact Kept.refl _
      | mem m => exact kept_readByte hr
    exact (((kept_advance s len).trans k).trans (hf v s')).trans (kept_addCycles _ _)

theorem kept_storing {m : Mode} {r : Reg8} {len base : Nat} {s t : State} (h : storing m r len base s = .next t) : Kept s t := by
  unfold storing at h
  split at h
  · simp at h
  · rename_i hw
    obtain rfl := Host.Outcome.next.inj h
    exact ((kept_advance s len).trans (kept_writeByte hw)).trans (kept_addCycles _ _)

theorem kept_modifying {p : Place} {len base : Nat} {f : Flags → Byte → Byte × Flags} {s t : State}
    (h : modifying p len base f s = .next t) : Kept s t := by
  unfold modifying at h
  dsimp only at h
  split at h
  · obtain rfl := Host.Outcome.next.inj h
    exact (((kept_advance s len).trans (kept_setReg _ _ _)).trans (kept_setFlags _ _)).trans (kept_addCycles _ _)
  · split at h
    · simp at h
    · rename_i hr
      split at h
      · simp at h
      · rename_i hw
        obtain rfl := Host.Outcome.next.inj h
        exact ((((kept_advance s len).trans (kept_readByte hr)).trans (kept_writeByte hw)).trans (kept_setFlags _ _)).trans
          (kept_addCycles _ _)

theorem kept_implied {base : Nat} {f : State → State} {s t : State} (hf : ∀ u, Kept u (f u)) (h : implied base f s = .next t) :
    Kept s t := by
  unfold implied at h
  obtain rfl := Host.Outcome.next.inj h
  exact ((kept_advance s 1).trans (hf _)).trans (kept_addCycles _ _)

theorem kept_branching {c : Bool} {off : Int} {s t : State} (h : branching c off s = .next t) : Kept s t := by
  unfold branching at h
  dsimp only at h
  split at h
  · obtain rfl := Host.Outcome.next.inj h
    exact ((kept_advance s 2).trans (kept_setPc _ _)).trans (kept_addCycles _ _)
  · obtain rfl := Host.Outcome.next.inj h
    exact (kept_advance s 2).trans (kept_addCycles _ _)

theorem kept_jumpIndirect {ptr : Word} {s t : State} (h : jumpIndirect ptr s = .next t) : Kept s t := by
  unfold jumpIndirect at h
  split at h
  · simp at h
  · rename_i h1
    split at h
    · simp at h
    · rename_i h2
      obtain rfl := Host.Outcome.next.inj h
      exact (((kept_readByte h1).trans (kept_readByte h2)).trans (kept_setPc _ _)).trans (kept_addCycles _ _)

theorem kept_callSubroutine {w : Word} {s t : State} (h : callSubroutine w s = .next t) : Kept s t := by
  unfold callSubroutine at h
  obtain rfl := Host.Outcome.next.inj h
  exact ((kept_pushWord _ s).trans (kept_setPc _ _)).trans (kept_addCycles _ _)

theorem kept_loadReg (r : Reg8) (v : Byte) (s : State) : Kept s (loadReg r v s) := (kept_setReg s r v).trans (kept_setFlags _ _)

theorem kept_accumulate (f : Flags → Byte → Byte → Byte × Flags) (m : Byte) (s : State) : Kept s (accumulate f m s) :=
  (kept_setReg s _ _).trans (kept_setFlags _ _)

theorem kept_compareReg (r : Reg8) (m : Byte) (s : State) : Kept s (compareReg r m s) := kept_setFlags _ _

theorem kept_bitTestA (m : Byte) (s : State) : Kept s (bitTestA m s) := kept_setFlags _ _

theorem kept_stepReg (r : Reg8) (f : Flags → Byte → Byte × Flags) (s : State) : Kept s (stepReg r f s) :=
  (kept_setReg s _ _).trans (kept_setFlags _ _)

end Sys2Proof.Machine
end

