-- ==== Sys2Proof/Laws/KeptDevices.lean ====
section
/-! SUPPORT. What one device cycle, one host event and a reset keep (see Laws/Kept.lean). -/

namespace Sys2Proof.Machine

/-! ## One APU cycle -/

theorem apuOk_atStep (f : FrameSteps) (u : Apu) (n : Nat) (g : Apu → Apu) (hg : ∀ w, ApuOk f w → ApuOk f (g w)) (h : ApuOk f u) :
    ApuOk f (u.atStep n g) := by
  unfold Apu.atStep
  split
  · exact hg u h
  · exact h

theorem apuOk_advanceCounter (f : FrameSteps) (u : Apu) (h : ApuOk f u) : ApuOk f (u.advanceCounter f) := by
  refine ⟨?_, h.2⟩
  have h1 := h.1
  unfold Apu.advanceCounter
  dsimp only
  cases hm : u.fmode
  · simp only [hm, Bool.false_eq_true, if_false] at h1
    by_cases h2 : u.fc + 1 = f.s4 + 1
    · simp [h2]
    · simp only [Bool.false_eq_true, if_false, h2, and_false, false_and]; omega
  · simp only [hm, if_true] at h1
    by_cases h2 : u.fc + 1 = f.s5 + 1
    · simp [h2]
    · simp only [if_true, h2, and_false, Bool.true_eq_false, false_and, if_false]; omega

theorem apuOk_raiseFrameIrq (f : FrameSteps) (u : Apu) (h : ApuOk f u) : ApuOk f u.raiseFrameIrq := by
  unfold Apu.raiseFrameIrq
  split <;> exact h

theorem apuOk_sequencerStep (f : FrameSteps) (u : Apu) (h : ApuOk f u) : ApuOk f (u.sequencerStep f) := by
  have hq : ∀ w, ApuOk f w → ApuOk f w.quarter := apuOk_quarter f
  have hh : ∀ w, ApuOk f w → ApuOk f w.quarter.halfFrame := fun w hw => apuOk_halfFrame f _ (apuOk_quarter f w hw)
  unfold Apu.sequencerStep
  dsimp only
  have k : ApuOk f ((((u.advanceCounter f).atStep f.s1 Apu.quarter).atStep f.s2 (fun u => u.quarter.halfFrame)).atStep f.s3
      Apu.quarter) :=
    apuOk_atStep f _ _ _ hq (apuOk_atStep f _ _ _ hh (apuOk_atStep f _ _ _ hq (apuOk_advanceCounter f u h)))
  split
  · exact apuOk_atStep f _ _ _ hh k
  · exact apuOk_atStep f _ _ _ (fun w hw => apuOk_raiseFrameIrq f _ (hh w hw)) k

/-- A step of the noise register never makes it zero (51_apu.md R521). -/
theorem lfsrStep_ne_zero (mode : Bool) (l : BitVec 15) (h : l ≠ 0) : lfsrStep mode l ≠ 0 := by
  intro hz
  apply h
  have hb : ∀ i, (lfsrStep mode l).getLsbD i = false := by intro i; rw [hz]; simp
  have hs : ∀ i, 1 ≤ i → l.getLsbD i = false := by
    intro i hi
    have := hb (i - 1)
    simp only [lfsrStep, BitVec.getLsbD_or, Bool.or_eq_false_iff] at this
    have h2 := this.1
    rw [BitVec.getLsbD_ushiftRight] at h2
    rwa [show 1 + (i - 1) = i by omega] at h2
  have h0 : l.getLsbD 0 = false := by
    have := hb 14
    simp only [lfsrStep, hs 6 (by omega), hs 1 (by omega), ite_self, Bool.xor_false, BitVec.getLsbD_or,
      Bool.or_eq_false_iff] at this
    have h2 := this.2
    cases hl : l.getLsbD 0
    · rfl
    · rw [hl] at h2; revert h2; decide
  apply BitVec.eq_of_getLsbD_eq
  intro i hi
  cases i with
  | zero => rw [h0]; rfl
  | succ i => rw [hs _ (by omega)]; simp

theorem noiseClock_ok (c : Noise) (h : c.lfsr ≠ 0) : c.timerClock.lfsr ≠ 0 ∧ c.timerClock.length = c.length := by
  unfold Noise.timerClock
  split
  · exact ⟨lfsrStep_ne_zero _ _ h, rfl⟩
  · exact ⟨h, rfl⟩

theorem pulseClock_length (c : Pulse) : c.timerClock.length = c.length := by
  unfold Pulse.timerClock
  split <;> rfl

theorem triangleClock_length (c : Triangle) : c.timerClock.length = c.length := by
  unfold Triangle.timerClock
  split <;> rfl

/-- The output unit's clock keeps the reader's fields and one to eight bits to go (51_apu.md R533). -/
theorem dmcClock_ok (c : Dmc) (h1 : 1 ≤ c.bitsRem.toNat) (h2 : c.bitsRem.toNat ≤ 8) :
    c.timerClock.curAddr = c.curAddr ∧ c.timerClock.bytesRem = c.bytesRem ∧ 1 ≤ c.timerClock.bitsRem.toNat ∧
    c.timerClock.bitsRem.toNat ≤ 8 := by
  have hb : ∀ b : BitVec 4, 1 ≤ b.toNat → b.toNat ≤ 8 → ¬ b - 1 = 0 → 1 ≤ (b - 1).toNat ∧ (b - 1).toNat ≤ 8 := by decide
  have h8 : 1 ≤ (8 : BitVec 4).toNat ∧ (8 : BitVec 4).toNat ≤ 8 := by decide
  unfold Dmc.timerClock
  split
  · unfold Dmc.outputClock
    cases c.silence <;> simp only [Bool.false_eq_true, if_false, if_true]
    all_goals
      split
      · split <;> exact ⟨rfl, rfl, h8⟩
      · rename_i hne
        exact ⟨rfl, rfl, hb _ h1 h2 hne⟩
  · exact ⟨rfl, rfl, h1, h2⟩

theorem apuOk_timers (f : FrameSteps) (u : Apu) (h : ApuOk f u) : ApuOk f u.timers := by
  obtain ⟨h1, h2, h3, h4, h5, h6, h7, h8, h9, h10⟩ := h
  have ht : u.triangle.timerClock.length.toNat ≤ 254 := by rw [triangleClock_length]; exact h9
  unfold Apu.timers
  dsimp only
  split
  · have hn := noiseClock_ok u.noise h2
    have hd := dmcClock_ok u.dmc h5 h6
    refine ⟨h1, hn.1, ?_, ?_, hd.2.2.1, hd.2.2.2, ?_, ?_, ht, ?_⟩
    · show _ ≤ u.dmc.timerClock.curAddr.toNat; rw [hd.1]; exact h3
    · show u.dmc.timerClock.bytesRem.toNat ≤ _; rw [hd.2.1]; exact h4
    · show u.pulse0.timerClock.length.toNat ≤ _; rw [pulseClock_length]; exact h7
    · show u.pulse1.timerClock.length.toNat ≤ _; rw [pulseClock_length]; exact h8
    · show u.noise.timerClock.length.toNat ≤ _; rw [hn.2]; exact h10
  · exact ⟨h1, h2, h3, h4, h5, h6, h7, h8, ht, h10⟩

/-- The reader's bookkeeping keeps its address at $8000 or above (51_apu.md R532). -/
theorem dmcAccept_ok (c : Dmc) (b : Byte) (hw : c.wantsByte = true) (ha : 0x8000 ≤ c.curAddr.toNat) (hr : c.bytesRem.toNat ≤ 4081) :
    0x8000 ≤ (c.accept b).curAddr.toNat ∧ (c.accept b).bytesRem.toNat ≤ 4081 ∧ (c.accept b).bitsRem = c.bitsRem := by
  have hne : c.bytesRem ≠ 0 := by
    simp only [Dmc.wantsByte, Bool.and_eq_true, decide_eq_true_eq] at hw
    exact hw.2
  have h1 : 1 ≤ c.bytesRem.toNat := by
    rcases Nat.eq_zero_or_pos c.bytesRem.toNat with h | h
    · exact absurd (BitVec.eq_of_toNat_eq (by simpa using h)) hne
    · exact h
  have hsub : (c.bytesRem - 1).toNat ≤ 4081 := by
    have h2 := c.bytesRem.isLt
    have h3 : (1 : BitVec 12).toNat = 1 := rfl
    rw [BitVec.toNat_sub, h3]
    omega
  have hadr : 0x8000 ≤ (if c.curAddr = 0xFFFF then (0x8000 : Word) else c.curAddr + 1).toNat := by
    split
    · decide
    · rename_i h
      have : c.curAddr.toNat ≠ 0xFFFF := fun e => h (BitVec.eq_of_toNat_eq e)
      have h3 : (1 : Word).toNat = 1 := rfl
      rw [BitVec.toNat_add, h3]
      omega
  unfold Dmc.accept
  dsimp only
  split
  · split
    · exact restart_ok _
    · split <;> exact ⟨hadr, hsub, rfl⟩
  · exact ⟨hadr, hsub, rfl⟩

theorem kept_dmcReader {s s' : State} (h : dmcReader s = .ok () s') : Kept s s' := by
  unfold dmcReader at h
  split at h
  · rename_i hw
    split at h
    · simp at h
    · rename_i b s1 hr
      obtain ⟨-, rfl⟩ := Access.ok.inj h
      have k : Kept s s1 := (kept_addCycles s _).trans (kept_readByte hr)
      have kd : s1.apu.dmc = s.apu.dmc := by
        rcases cpuRange_cases s.apu.dmc.curAddr with h1 | ⟨h0, h1⟩ | ⟨h0, h1⟩ | ⟨h0, h1⟩ | ⟨h0, h1⟩ | h1
        · rw [readByte_ram _ h1] at hr; obtain ⟨-, rfl⟩ := Access.ok.inj hr; rfl
        · rw [readByte_ppu _ h0 h1] at hr; obtain ⟨-, rfl⟩ := Access.ok.inj hr
          unfold ppuReadRegister
          split
          · rfl
          · rfl
          · unfold readVramData; dsimp only; split <;> rfl
          · rfl
        · rw [readByte_io _ h0 h1] at hr; obtain ⟨-, rfl⟩ := Access.ok.inj hr
          unfold ioRead
          split <;> rfl
        · cases hu : s.params.unlistedIo
          · rw [readByte_unmapped _ (show (s.addCycles _).params.unlistedIo = .fault from hu) h0 h1] at hr; simp at hr
          · rw [readByte_zeros _ (show (s.addCycles _).params.unlistedIo = .zero from hu) h0 h1] at hr; obtain ⟨-, rfl⟩ := Access.ok.inj hr; rfl
        · rw [readByte_cart _ h0 h1] at hr; obtain ⟨-, rfl⟩ := Access.ok.inj hr; rfl
        · rw [readByte_prg _ h1] at hr; obtain ⟨-, rfl⟩ := Access.ok.inj hr; rfl
      refine k.trans (Kept.ofApu (fun ⟨h1, h2, h3, h4, h5, h6, h7⟩ => ?_))
      have hd := dmcAccept_ok s1.apu.dmc b (by rw [kd]; exact hw) h3 h4
      exact ⟨h1, h2, hd.1, hd.2.1, by show 1 ≤ (s1.apu.dmc.accept b).bitsRem.toNat; rw [hd.2.2]; exact h5,
        by show (s1.apu.dmc.accept b).bitsRem.toNat ≤ 8; rw [hd.2.2]; exact h6, h7⟩
  · obtain ⟨-, rfl⟩ := Access.ok.inj h
    exact Kept.refl s

theorem kept_apuCycle {s s' : State} (h : apuCycle s = .ok () s') : Kept s s' := by
  unfold apuCycle at h
  split at h
  · simp at h
  · rename_i s1 hd
    obtain ⟨-, rfl⟩ := Access.ok.inj h
    have k1 : Kept s (s.withApu (s.apu.sequencerStep s.params.frameStepCycles)) := Kept.ofApu (apuOk_sequencerStep _ _)
    have k2 : Kept s1 (s1.withApu s1.apu.timers) := Kept.ofApu (apuOk_timers _ _)
    exact ((k1.trans (kept_dmcReader hd)).trans k2).trans
      ⟨rfl, rfl, rfl, rfl, rfl, rfl, Nat.le_refl _, id, fun _ => id, id, id⟩

/-! ## One PPU cycle -/

theorem kept_clearFlags (s : State) : Kept s (clearFlags s) := by
  unfold clearFlags
  split
  · exact ⟨rfl, rfl, rfl, rfl, rfl, rfl, Nat.le_refl _, id, fun _ q => ⟨q.1, q.2.1, rfl, q.2.2.2⟩, id, id⟩
  · exact Kept.refl s

theorem kept_startVblank (s : State) : Kept s (startVblank s) := by
  unfold startVblank
  split
  · have k : Kept s (s.withPpu { s.ppu with vblank := true }) := Kept.ofPpu rfl rfl rfl rfl rfl rfl rfl rfl rfl
    dsimp only
    split
    · exact k.trans (kept_triggerNmi _)
    · exact k
  · exact Kept.refl s

/-- Six-bit entries stay six-bit (50_ppu.md R451). -/
theorem colour_lt (b : Byte) : (b &&& 0x3F).toNat < 64 := by revert b; decide

theorem kept_outputPixel (x y : Nat) (s : State) (hx : x < 256) (hy : y < 240) : Kept s (outputPixel x y s) := by
  unfold outputPixel
  dsimp only
  refine ⟨rfl, rfl, rfl, rfl, rfl, rfl, Nat.le_refl _,
    fun ⟨m1, m2, m3, m4, m5, m6, m7, m8⟩ => ⟨m1, m2, m3, m4, m5, m6, Memory.wf_write m7 (by omega), m8⟩,
    fun m q => ⟨q.1, q.2.1, q.2.2.1, fun k => ?_⟩, id, id⟩
  show ((s.ppu.frame.write (y * 256 + x) _).read k).toNat < 64
  rw [Memory.read_write_from m.2.2.2.2.2.2.1]
  split
  · exact colour_lt _
  · exact q.2.2.2 k

theorem kept_visiblePixel (s : State) : Kept s (visiblePixel s) := by
  unfold visiblePixel
  split
  · exact kept_outputPixel _ _ s (by omega) (by omega)
  · exact Kept.refl s

/-- A change of the PPU's v and background queue. -/
theorem Kept.ofFetch (s : State) (v : BitVec 15) (q : Vector (BitVec 4) 16) : Kept s (s.withPpu { s.ppu with v := v, bgq := q }) :=
  Kept.ofPpu rfl rfl rfl rfl rfl rfl rfl rfl rfl

/-- Background work changes v and the queue only (50_ppu.md R431 to R435). -/
theorem backgroundWork_eq (s : State) : ∃ v q, backgroundWork s = s.withPpu { s.ppu with v := v, bgq := q } := by
  have step : ∀ (p : Ppu) (c : Prop) (_ : Decidable c) (w : BitVec 15), (∃ v q, p = { s.ppu with v := v, bgq := q }) →
      ∃ v q, (if c then { p with v := w } else p) = { s.ppu with v := v, bgq := q } := by
    rintro p c _ w ⟨v, q, rfl⟩
    split
    · exact ⟨w, q, rfl⟩
    · exact ⟨v, q, rfl⟩
  have lift : ∀ p : Ppu, (∃ v q, p = { s.ppu with v := v, bgq := q }) →
      ∃ v q, s.withPpu p = s.withPpu { s.ppu with v := v, bgq := q } := by
    rintro p ⟨v, q, rfl⟩
    exact ⟨v, q, rfl⟩
  have start : ∃ v q, (if isFetchCycle s.ppu.cycle = true then fetchTile s else s.ppu) = { s.ppu with v := v, bgq := q } := by
    split
    · exact ⟨_, _, rfl⟩
    · exact ⟨s.ppu.v, s.ppu.bgq, rfl⟩
  unfold backgroundWork
  dsimp only
  split
  · exact lift _ (step _ _ _ _ (step _ _ _ _ (step _ _ _ _ start)))
  · exact ⟨s.ppu.v, s.ppu.bgq, rfl⟩

theorem kept_backgroundWork (s : State) : Kept s (backgroundWork s) := by
  obtain ⟨v, q, h⟩ := backgroundWork_eq s
  rw [h]
  exact Kept.ofFetch s v q

theorem kept_spriteWork (s : State) : Kept s (spriteWork s) := by
  unfold spriteWork
  split
  · exact ⟨rfl, rfl, rfl, rfl, rfl, rfl, Nat.le_refl _,
      fun ⟨m1, m2, m3, m4, m5, m6, m7, _, _, m10⟩ =>
        ⟨m1, m2, m3, m4, m5, m6, m7, m4, Memory.wfFrom_tabulate ({ s.ppu with sprSnap := s.ppu.oam } : Ppu).countSprites 0 240 240 (by decide), m10⟩,
      fun _ q => q, id, id⟩
  · exact Kept.refl s

theorem kept_ppuAdvance (s : State) : Kept s (s.withPpu s.ppu.advance) := by
  unfold Ppu.advance
  split
  · exact ⟨rfl, rfl, rfl, rfl, rfl, rfl, Nat.le_refl _, id,
      fun _ q => ⟨by
        show (if s.ppu.scanline + 1 = 262 then 0 else s.ppu.scanline + 1) ≤ 261
        have h1 := q.1
        generalize s.ppu.scanline = n at h1 ⊢
        split <;> omega, by show 0 ≤ 340; omega, q.2.2⟩, id, id⟩
  · exact ⟨rfl, rfl, rfl, rfl, rfl, rfl, Nat.le_refl _, id,
      fun _ q => ⟨q.1, by show _ + 1 ≤ 340; have := q.2.1; omega, q.2.2⟩, id, id⟩

theorem kept_ppuCycle (s : State) : Kept s (ppuCycle s) := by
  unfold ppuCycle
  exact (((((kept_clearFlags s).trans (kept_startVblank _)).trans (kept_visiblePixel _)).trans (kept_backgroundWork _)).trans
    (kept_spriteWork _)).trans (kept_ppuAdvance _)

theorem kept_frameReadyCheck (s : State) : Kept s (frameReadyCheck s) := by
  unfold frameReadyCheck
  dsimp only
  split
  · exact ⟨rfl, rfl, rfl, rfl, rfl, rfl, Nat.le_refl _,
      fun ⟨m1, m2, m3, m4, m5, m6, m7, m8, m9, _⟩ => ⟨m1, m2, m3, m4, m5, m6, m7, m8, m9, m7⟩, fun _ q => q, id, id⟩
  · exact ⟨rfl, rfl, rfl, rfl, rfl, rfl, Nat.le_refl _, id, fun _ => id, id, id⟩

theorem kept_ppuTick (s : State) : Kept s (ppuTick s) := (kept_ppuCycle s).trans (kept_frameReadyCheck _)

/-! ## The host, and reset -/

theorem kept_setButtons (second : Bool) (b : Buttons) (s : State) : Kept s (setButtons second b s) := by
  unfold setButtons
  split <;> exact ⟨rfl, rfl, rfl, rfl, rfl, rfl, Nat.le_refl _, id, fun _ => id, id, id⟩

theorem kept_cpuReset (s : State) : Kept s (cpuReset s) := Kept.ofCpu (Nat.le_add_right _ _)

theorem apuOk_powerUp (f : FrameSteps) : ApuOk f Apu.powerUp := by
  refine ⟨Nat.zero_le _, ?_⟩
  decide

theorem kept_systemReset (s : State) : Kept s (systemReset s) :=
  (kept_cpuReset s).trans (Kept.ofApu (fun _ => apuOk_powerUp _))

theorem kept_hostQueue (s : State) (q : List HostEvent) : Kept s { s with hostQueue := q } :=
  ⟨rfl, rfl, rfl, rfl, rfl, rfl, Nat.le_refl _, id, fun _ => id, id, id⟩

theorem kept_endDeferral (s : State) : Kept s (endDeferral s) := Kept.ofCpu (Nat.le_refl _)

/-! ## Fetching -/

theorem kept_fetchBytes {n : Nat} {a : Word} {s s' : State} {bs : List Byte} (h : fetchBytes n a s = .ok bs s') : Kept s s' := by
  induction n generalizing a s bs with
  | zero => obtain ⟨-, rfl⟩ := Access.ok.inj h; exact Kept.refl s
  | succ n ih =>
    simp only [fetchBytes] at h
    split at h
    · simp at h
    · rename_i h1
      split at h
      · simp at h
      · rename_i h2
        obtain ⟨-, rfl⟩ := Access.ok.inj h
        exact (kept_readByte h1).trans (ih h2)

theorem kept_fetch {s s' : State} {i : Instr} (h : fetch s = .ok i s') : Kept s s' := by
  unfold fetch at h
  split at h
  · simp at h
  · rename_i h1
    split at h
    · simp at h
    · split at h
      · simp at h
      · rename_i h2
        split at h
        · obtain ⟨-, rfl⟩ := Access.ok.inj h
          exact (kept_readByte h1).trans (kept_fetchBytes h2)
        · simp at h

end Sys2Proof.Machine
end

