-- ==== Sys2Proof/Laws/Arms.lean ====
section
/-! SUPPORT. What `exec` is for each shape of instruction, read off the tables of Safety.lean, and the inversion of each shape. A proof
about a family cites one of these instead of splitting the dispatch. -/

namespace Sys2Proof.Machine

/-- What a reading instruction does with its operand. -/
def ReadOp.effect : ReadOp → Byte → State → State
  | .opLda => loadReg .a
  | .opLdx => loadReg .x
  | .opLdy => loadReg .y
  | .opAdc => accumulate Flags.adc
  | .opSbc => accumulate Flags.sbc
  | .opAnd => accumulate (Flags.logic (· &&& ·))
  | .opOra => accumulate (Flags.logic (· ||| ·))
  | .opEor => accumulate (Flags.logic (· ^^^ ·))
  | .opCmp => compareReg .a
  | .opCpx => compareReg .x
  | .opCpy => compareReg .y
  | .opBit => bitTestA

/-- What a read-modify-write instruction does with its operand. -/
def RmwOp.effect : RmwOp → Flags → Byte → Byte × Flags
  | .opAsl => Flags.asl
  | .opLsr => Flags.lsr
  | .opRol => Flags.rol
  | .opRor => Flags.ror
  | .opInc => Flags.inc
  | .opDec => Flags.dec

theorem exec_of_readForm {i : Instr} {op : ReadOp} {src : Source} {len base : Nat} (h : readForm i = some (op, src, len, base))
    (s : State) : exec i s = reading src len base op.effect s := by
  cases i <;> simp only [readForm, reduceCtorEq, Option.some.injEq, Prod.mk.injEq] at h <;>
    (obtain ⟨rfl, rfl, rfl, rfl⟩ := h; rfl)

theorem exec_of_storeForm {i : Instr} {r : Reg8} {m : Mode} {len base : Nat} (h : storeForm i = some (r, m, len, base)) (s : State) :
    exec i s = storing m r len base s := by
  cases i <;> simp only [storeForm, reduceCtorEq, Option.some.injEq, Prod.mk.injEq] at h <;>
    (obtain ⟨rfl, rfl, rfl, rfl⟩ := h; rfl)

theorem exec_of_rmwForm {i : Instr} {op : RmwOp} {m : Mode} {len base : Nat} (h : rmwForm i = some (op, m, len, base)) (s : State) :
    exec i s = modifying (.mem m) len base op.effect s := by
  cases i <;> simp only [rmwForm, reduceCtorEq, Option.some.injEq, Prod.mk.injEq] at h <;>
    (obtain ⟨rfl, rfl, rfl, rfl⟩ := h; rfl)

theorem exec_of_branchForm {i : Instr} {c : Flags → Bool} {off : Int} (h : branchForm i = some (c, off)) (s : State) :
    exec i s = branching (c s.cpu.p) off s := by
  cases i <;> simp only [branchForm, reduceCtorEq, Option.some.injEq, Prod.mk.injEq] at h <;>
    (obtain ⟨rfl, rfl⟩ := h; rfl)

/-- The meaning's page-cross cycle is the one of 30_encoding.md R156: the other modes never leave a page. -/
theorem crossCycle_eq_pageCrossCycle (s : State) (src : Source) : crossCycle s src = pageCrossCycle s src := by
  cases src with
  | imm v => rfl
  | mem m => cases m <;> rfl

/-! ## Inversion of the shapes -/

/-- A reading instruction, from its operand's access. -/
theorem reading_ok {src : Source} {len base : Nat} {f : Byte → State → State} {s s' : State} {v : Byte}
    (h : fetchSource src (s.advance len) = .ok v s') :
    reading src len base f s = .next ((f v s').addCycles (base + crossCycle (s.advance len) src)) := by
  simp [reading, h]

theorem reading_fault {src : Source} {len base : Nat} {f : Byte → State → State} {s : State} {e : Fault}
    (h : fetchSource src (s.advance len) = .fault e) : reading src len base f s = .fault e := by
  simp [reading, h]

theorem storing_ok {m : Mode} {r : Reg8} {len base : Nat} {s s' : State}
    (h : writeByte (effective (s.advance len) m).1 (s.getReg r) (s.advance len) = .ok () s') :
    storing m r len base s = .next (s'.addCycles base) := by
  simp [storing, h]

theorem modifying_ok {m : Mode} {len base : Nat} {f : Flags → Byte → Byte × Flags} {s s1 s2 : State} {v : Byte}
    (h1 : readByte (effective (s.advance len) m).1 (s.advance len) = .ok v s1)
    (h2 : writeByte (effective (s.advance len) m).1 (f s1.cpu.p v).1 s1 = .ok () s2) :
    modifying (.mem m) len base f s = .next ((s2.setFlags (f s1.cpu.p v).2).addCycles base) := by
  simp [modifying, h1, h2]

/-! ## What a whole instruction keeps -/

theorem kept_readOp (op : ReadOp) (v : Byte) (s : State) : Kept s (op.effect v s) := by
  cases op
  · exact kept_loadReg _ _ _
  · exact kept_loadReg _ _ _
  · exact kept_loadReg _ _ _
  · exact kept_accumulate _ _ _
  · exact kept_accumulate _ _ _
  · exact kept_accumulate _ _ _
  · exact kept_accumulate _ _ _
  · exact kept_accumulate _ _ _
  · exact kept_compareReg _ _ _
  · exact kept_compareReg _ _ _
  · exact kept_compareReg _ _ _
  · exact kept_bitTestA _ _

theorem kept_exec {i : Instr} {s t : State} (h : exec i s = .next t) : Kept s t := by
  by_cases hr : (readForm i).isSome
  · obtain ⟨⟨op, src, len, base⟩, hr⟩ := Option.isSome_iff_exists.1 hr
    rw [exec_of_readForm hr] at h
    exact kept_reading (kept_readOp op) h
  by_cases hs : (storeForm i).isSome
  · obtain ⟨⟨r, m, len, base⟩, hs⟩ := Option.isSome_iff_exists.1 hs
    rw [exec_of_storeForm hs] at h
    exact kept_storing h
  by_cases hm : (rmwForm i).isSome
  · obtain ⟨⟨op, m, len, base⟩, hm⟩ := Option.isSome_iff_exists.1 hm
    rw [exec_of_rmwForm hm] at h
    exact kept_modifying h
  by_cases hb : (branchForm i).isSome
  · obtain ⟨⟨c, off⟩, hb⟩ := Option.isSome_iff_exists.1 hb
    rw [exec_of_branchForm hb] at h
    exact kept_branching h
  cases i <;> first
    | exact absurd rfl hr
    | exact absurd rfl hs
    | exact absurd rfl hm
    | exact absurd rfl hb
    | skip

  case brk => exact kept_implied (fun u => kept_interruptEntry _ _ _ _ u) (show execBrk s = .next t from h)
  case php => exact kept_implied (fun u => kept_push _ u) (show execPhp s = .next t from h)
  case aslAcc => exact kept_modifying (show execAslAcc s = .next t from h)
  case clc => exact kept_implied (fun u => kept_setFlags u _) (show execClc s = .next t from h)
  case jsr addr => exact (kept_advance s 3).trans (kept_callSubroutine (show execJsr addr s = .next t from h))
  case plp => exact kept_implied (fun u => (kept_dropTop u).trans (kept_setFlags _ _)) (show execPlp s = .next t from h)
  case rolAcc => exact kept_modifying (show execRolAcc s = .next t from h)
  case sec => exact kept_implied (fun u => kept_setFlags u _) (show execSec s = .next t from h)
  case rti => exact kept_implied (fun u => kept_interruptReturn u) (show execRti s = .next t from h)
  case pha => exact kept_implied (fun u => kept_push _ u) (show execPha s = .next t from h)
  case lsrAcc => exact kept_modifying (show execLsrAcc s = .next t from h)
  case jmpAbs => exact (Host.Outcome.next.inj h) ▸ ((kept_setPc s _).trans (kept_addCycles _ _))
  case cli => exact kept_implied (fun u => kept_setFlags u _) (show execCli s = .next t from h)
  case rts => exact kept_implied (fun u => ((kept_dropTop u).trans (kept_dropTop _)).trans (kept_setPc _ _)) (show execRts s = .next t from h)
  case pla => exact kept_implied (fun u => (kept_dropTop u).trans (kept_loadReg _ _ _)) (show execPla s = .next t from h)
  case rorAcc => exact kept_modifying (show execRorAcc s = .next t from h)
  case jmpInd ptr => exact (kept_advance s 3).trans (kept_jumpIndirect (show execJmpInd ptr s = .next t from h))
  case sei => exact kept_implied (fun u => kept_setFlags u _) (show execSei s = .next t from h)
  case dey => exact kept_implied (fun u => kept_stepReg _ _ u) (show execDey s = .next t from h)
  case txa => exact kept_implied (fun u => kept_loadReg _ _ u) (show execTxa s = .next t from h)
  case tya => exact kept_implied (fun u => kept_loadReg _ _ u) (show execTya s = .next t from h)
  case txs => exact kept_implied (fun u => kept_setReg u _ _) (show execTxs s = .next t from h)
  case tay => exact kept_implied (fun u => kept_loadReg _ _ u) (show execTay s = .next t from h)
  case tax => exact kept_implied (fun u => kept_loadReg _ _ u) (show execTax s = .next t from h)
  case clv => exact kept_implied (fun u => kept_setFlags u _) (show execClv s = .next t from h)
  case tsx => exact kept_implied (fun u => kept_loadReg _ _ u) (show execTsx s = .next t from h)
  case iny => exact kept_implied (fun u => kept_stepReg _ _ u) (show execIny s = .next t from h)
  case dex => exact kept_implied (fun u => kept_stepReg _ _ u) (show execDex s = .next t from h)
  case cld => exact kept_implied (fun u => kept_setFlags u _) (show execCld s = .next t from h)
  case inx => exact kept_implied (fun u => kept_stepReg _ _ u) (show execInx s = .next t from h)
  case nop => exact kept_implied (fun u => Kept.refl u) (show execNop s = .next t from h)
  case sed => exact kept_implied (fun u => kept_setFlags u _) (show execSed s = .next t from h)

/-! ## What one interrupt check keeps -/

theorem kept_runInstruction {s t : State} (h : runInstruction s = .next t) : Kept s t := by
  unfold runInstruction at h
  split at h
  · simp at h
  · rename_i hf
    exact (kept_fetch hf).trans (kept_exec h)

end Sys2Proof.Machine
end

