-- ==== Sys2Proof/Laws/PerInstr.lean ====
section
/-! SUPPORT. Per-instruction laws. LengthAgrees: the decoder's form for an instruction's opcode byte has the length of its encoding
(30_encoding.md R140, R141, R168). -/

namespace Sys2Proof.Laws.LengthAgrees

open Sys2Proof

/-- The opcode byte of `i` names a form of the opcode matrix whose length is that of the encoding. -/
def Statement (i : Instr) : Prop := (opForm ((encode i).headD 0)).map OpForm.length = some (encode i).length

/-- From an encoding written out. -/
theorem of_encode {i : Instr} {op : Byte} {rest : List Byte} (n : Nat) (he : encode i = op :: rest) (hn : rest.length + 1 = n)
    (ho : (opForm op).map OpForm.length = some n) : Statement i := by
  subst hn
  rw [Statement, he]
  exact ho

theorem brk : Statement .brk := of_encode 1 rfl rfl (by decide)
theorem oraIndx (zp : Byte) : Statement (.oraIndx zp) := of_encode 2 rfl rfl (by decide)
theorem oraZp (zp : Byte) : Statement (.oraZp zp) := of_encode 2 rfl rfl (by decide)
theorem aslZp (zp : Byte) : Statement (.aslZp zp) := of_encode 2 rfl rfl (by decide)
theorem php : Statement .php := of_encode 1 rfl rfl (by decide)
theorem oraImm (v : Byte) : Statement (.oraImm v) := of_encode 2 rfl rfl (by decide)
theorem aslAcc : Statement .aslAcc := of_encode 1 rfl rfl (by decide)
theorem oraAbs (addr : Word) : Statement (.oraAbs addr) := of_encode 3 rfl rfl (by decide)
theorem aslAbs (addr : Word) : Statement (.aslAbs addr) := of_encode 3 rfl rfl (by decide)
theorem bpl (off : Int) : Statement (.bpl off) := of_encode 2 rfl rfl (by decide)
theorem oraIndy (zp : Byte) : Statement (.oraIndy zp) := of_encode 2 rfl rfl (by decide)
theorem oraZpx (zp : Byte) : Statement (.oraZpx zp) := of_encode 2 rfl rfl (by decide)
theorem aslZpx (zp : Byte) : Statement (.aslZpx zp) := of_encode 2 rfl rfl (by decide)
theorem clc : Statement .clc := of_encode 1 rfl rfl (by decide)
theorem oraAbsy (addr : Word) : Statement (.oraAbsy addr) := of_encode 3 rfl rfl (by decide)
theorem oraAbsx (addr : Word) : Statement (.oraAbsx addr) := of_encode 3 rfl rfl (by decide)
theorem aslAbsx (addr : Word) : Statement (.aslAbsx addr) := of_encode 3 rfl rfl (by decide)
theorem jsr (addr : Word) : Statement (.jsr addr) := of_encode 3 rfl rfl (by decide)
theorem andIndx (zp : Byte) : Statement (.andIndx zp) := of_encode 2 rfl rfl (by decide)
theorem bitZp (zp : Byte) : Statement (.bitZp zp) := of_encode 2 rfl rfl (by decide)
theorem andZp (zp : Byte) : Statement (.andZp zp) := of_encode 2 rfl rfl (by decide)
theorem rolZp (zp : Byte) : Statement (.rolZp zp) := of_encode 2 rfl rfl (by decide)
theorem plp : Statement .plp := of_encode 1 rfl rfl (by decide)
theorem andImm (v : Byte) : Statement (.andImm v) := of_encode 2 rfl rfl (by decide)
theorem rolAcc : Statement .rolAcc := of_encode 1 rfl rfl (by decide)
theorem bitAbs (addr : Word) : Statement (.bitAbs addr) := of_encode 3 rfl rfl (by decide)
theorem andAbs (addr : Word) : Statement (.andAbs addr) := of_encode 3 rfl rfl (by decide)
theorem rolAbs (addr : Word) : Statement (.rolAbs addr) := of_encode 3 rfl rfl (by decide)
theorem bmi (off : Int) : Statement (.bmi off) := of_encode 2 rfl rfl (by decide)
theorem andIndy (zp : Byte) : Statement (.andIndy zp) := of_encode 2 rfl rfl (by decide)
theorem andZpx (zp : Byte) : Statement (.andZpx zp) := of_encode 2 rfl rfl (by decide)
theorem rolZpx (zp : Byte) : Statement (.rolZpx zp) := of_encode 2 rfl rfl (by decide)
theorem sec : Statement .sec := of_encode 1 rfl rfl (by decide)
theorem andAbsy (addr : Word) : Statement (.andAbsy addr) := of_encode 3 rfl rfl (by decide)
theorem andAbsx (addr : Word) : Statement (.andAbsx addr) := of_encode 3 rfl rfl (by decide)
theorem rolAbsx (addr : Word) : Statement (.rolAbsx addr) := of_encode 3 rfl rfl (by decide)
theorem rti : Statement .rti := of_encode 1 rfl rfl (by decide)
theorem eorIndx (zp : Byte) : Statement (.eorIndx zp) := of_encode 2 rfl rfl (by decide)
theorem eorZp (zp : Byte) : Statement (.eorZp zp) := of_encode 2 rfl rfl (by decide)
theorem lsrZp (zp : Byte) : Statement (.lsrZp zp) := of_encode 2 rfl rfl (by decide)
theorem pha : Statement .pha := of_encode 1 rfl rfl (by decide)
theorem eorImm (v : Byte) : Statement (.eorImm v) := of_encode 2 rfl rfl (by decide)
theorem lsrAcc : Statement .lsrAcc := of_encode 1 rfl rfl (by decide)
theorem jmpAbs (addr : Word) : Statement (.jmpAbs addr) := of_encode 3 rfl rfl (by decide)
theorem eorAbs (addr : Word) : Statement (.eorAbs addr) := of_encode 3 rfl rfl (by decide)
theorem lsrAbs (addr : Word) : Statement (.lsrAbs addr) := of_encode 3 rfl rfl (by decide)
theorem bvc (off : Int) : Statement (.bvc off) := of_encode 2 rfl rfl (by decide)
theorem eorIndy (zp : Byte) : Statement (.eorIndy zp) := of_encode 2 rfl rfl (by decide)
theorem eorZpx (zp : Byte) : Statement (.eorZpx zp) := of_encode 2 rfl rfl (by decide)
theorem lsrZpx (zp : Byte) : Statement (.lsrZpx zp) := of_encode 2 rfl rfl (by decide)
theorem cli : Statement .cli := of_encode 1 rfl rfl (by decide)
theorem eorAbsy (addr : Word) : Statement (.eorAbsy addr) := of_encode 3 rfl rfl (by decide)
theorem eorAbsx (addr : Word) : Statement (.eorAbsx addr) := of_encode 3 rfl rfl (by decide)
theorem lsrAbsx (addr : Word) : Statement (.lsrAbsx addr) := of_encode 3 rfl rfl (by decide)
theorem rts : Statement .rts := of_encode 1 rfl rfl (by decide)
theorem adcIndx (zp : Byte) : Statement (.adcIndx zp) := of_encode 2 rfl rfl (by decide)
theorem adcZp (zp : Byte) : Statement (.adcZp zp) := of_encode 2 rfl rfl (by decide)
theorem rorZp (zp : Byte) : Statement (.rorZp zp) := of_encode 2 rfl rfl (by decide)
theorem pla : Statement .pla := of_encode 1 rfl rfl (by decide)
theorem adcImm (v : Byte) : Statement (.adcImm v) := of_encode 2 rfl rfl (by decide)
theorem rorAcc : Statement .rorAcc := of_encode 1 rfl rfl (by decide)
theorem jmpInd (ptr : Word) : Statement (.jmpInd ptr) := of_encode 3 rfl rfl (by decide)
theorem adcAbs (addr : Word) : Statement (.adcAbs addr) := of_encode 3 rfl rfl (by decide)
theorem rorAbs (addr : Word) : Statement (.rorAbs addr) := of_encode 3 rfl rfl (by decide)
theorem bvs (off : Int) : Statement (.bvs off) := of_encode 2 rfl rfl (by decide)
theorem adcIndy (zp : Byte) : Statement (.adcIndy zp) := of_encode 2 rfl rfl (by decide)
theorem adcZpx (zp : Byte) : Statement (.adcZpx zp) := of_encode 2 rfl rfl (by decide)
theorem rorZpx (zp : Byte) : Statement (.rorZpx zp) := of_encode 2 rfl rfl (by decide)
theorem sei : Statement .sei := of_encode 1 rfl rfl (by decide)
theorem adcAbsy (addr : Word) : Statement (.adcAbsy addr) := of_encode 3 rfl rfl (by decide)
theorem adcAbsx (addr : Word) : Statement (.adcAbsx addr) := of_encode 3 rfl rfl (by decide)
theorem rorAbsx (addr : Word) : Statement (.rorAbsx addr) := of_encode 3 rfl rfl (by decide)
theorem staIndx (zp : Byte) : Statement (.staIndx zp) := of_encode 2 rfl rfl (by decide)
theorem styZp (zp : Byte) : Statement (.styZp zp) := of_encode 2 rfl rfl (by decide)
theorem staZp (zp : Byte) : Statement (.staZp zp) := of_encode 2 rfl rfl (by decide)
theorem stxZp (zp : Byte) : Statement (.stxZp zp) := of_encode 2 rfl rfl (by decide)
theorem dey : Statement .dey := of_encode 1 rfl rfl (by decide)
theorem txa : Statement .txa := of_encode 1 rfl rfl (by decide)
theorem styAbs (addr : Word) : Statement (.styAbs addr) := of_encode 3 rfl rfl (by decide)
theorem staAbs (addr : Word) : Statement (.staAbs addr) := of_encode 3 rfl rfl (by decide)
theorem stxAbs (addr : Word) : Statement (.stxAbs addr) := of_encode 3 rfl rfl (by decide)
theorem bcc (off : Int) : Statement (.bcc off) := of_encode 2 rfl rfl (by decide)
theorem staIndy (zp : Byte) : Statement (.staIndy zp) := of_encode 2 rfl rfl (by decide)
theorem styZpx (zp : Byte) : Statement (.styZpx zp) := of_encode 2 rfl rfl (by decide)
theorem staZpx (zp : Byte) : Statement (.staZpx zp) := of_encode 2 rfl rfl (by decide)
theorem stxZpy (zp : Byte) : Statement (.stxZpy zp) := of_encode 2 rfl rfl (by decide)
theorem tya : Statement .tya := of_encode 1 rfl rfl (by decide)
theorem staAbsy (addr : Word) : Statement (.staAbsy addr) := of_encode 3 rfl rfl (by decide)
theorem txs : Statement .txs := of_encode 1 rfl rfl (by decide)
theorem staAbsx (addr : Word) : Statement (.staAbsx addr) := of_encode 3 rfl rfl (by decide)
theorem ldyImm (v : Byte) : Statement (.ldyImm v) := of_encode 2 rfl rfl (by decide)
theorem ldaIndx (zp : Byte) : Statement (.ldaIndx zp) := of_encode 2 rfl rfl (by decide)
theorem ldxImm (v : Byte) : Statement (.ldxImm v) := of_encode 2 rfl rfl (by decide)
theorem ldyZp (zp : Byte) : Statement (.ldyZp zp) := of_encode 2 rfl rfl (by decide)
theorem ldaZp (zp : Byte) : Statement (.ldaZp zp) := of_encode 2 rfl rfl (by decide)
theorem ldxZp (zp : Byte) : Statement (.ldxZp zp) := of_encode 2 rfl rfl (by decide)
theorem tay : Statement .tay := of_encode 1 rfl rfl (by decide)
theorem ldaImm (v : Byte) : Statement (.ldaImm v) := of_encode 2 rfl rfl (by decide)
theorem tax : Statement .tax := of_encode 1 rfl rfl (by decide)
theorem ldyAbs (addr : Word) : Statement (.ldyAbs addr) := of_encode 3 rfl rfl (by decide)
theorem ldaAbs (addr : Word) : Statement (.ldaAbs addr) := of_encode 3 rfl rfl (by decide)
theorem ldxAbs (addr : Word) : Statement (.ldxAbs addr) := of_encode 3 rfl rfl (by decide)
theorem bcs (off : Int) : Statement (.bcs off) := of_encode 2 rfl rfl (by decide)
theorem ldaIndy (zp : Byte) : Statement (.ldaIndy zp) := of_encode 2 rfl rfl (by decide)
theorem ldyZpx (zp : Byte) : Statement (.ldyZpx zp) := of_encode 2 rfl rfl (by decide)
theorem ldaZpx (zp : Byte) : Statement (.ldaZpx zp) := of_encode 2 rfl rfl (by decide)
theorem ldxZpy (zp : Byte) : Statement (.ldxZpy zp) := of_encode 2 rfl rfl (by decide)
theorem clv : Statement .clv := of_encode 1 rfl rfl (by decide)
theorem ldaAbsy (addr : Word) : Statement (.ldaAbsy addr) := of_encode 3 rfl rfl (by decide)
theorem tsx : Statement .tsx := of_encode 1 rfl rfl (by decide)
theorem ldyAbsx (addr : Word) : Statement (.ldyAbsx addr) := of_encode 3 rfl rfl (by decide)
theorem ldaAbsx (addr : Word) : Statement (.ldaAbsx addr) := of_encode 3 rfl rfl (by decide)
theorem ldxAbsy (addr : Word) : Statement (.ldxAbsy addr) := of_encode 3 rfl rfl (by decide)
theorem cpyImm (v : Byte) : Statement (.cpyImm v) := of_encode 2 rfl rfl (by decide)
theorem cmpIndx (zp : Byte) : Statement (.cmpIndx zp) := of_encode 2 rfl rfl (by decide)
theorem cpyZp (zp : Byte) : Statement (.cpyZp zp) := of_encode 2 rfl rfl (by decide)
theorem cmpZp (zp : Byte) : Statement (.cmpZp zp) := of_encode 2 rfl rfl (by decide)
theorem decZp (zp : Byte) : Statement (.decZp zp) := of_encode 2 rfl rfl (by decide)
theorem iny : Statement .iny := of_encode 1 rfl rfl (by decide)
theorem cmpImm (v : Byte) : Statement (.cmpImm v) := of_encode 2 rfl rfl (by decide)
theorem dex : Statement .dex := of_encode 1 rfl rfl (by decide)
theorem cpyAbs (addr : Word) : Statement (.cpyAbs addr) := of_encode 3 rfl rfl (by decide)
theorem cmpAbs (addr : Word) : Statement (.cmpAbs addr) := of_encode 3 rfl rfl (by decide)
theorem decAbs (addr : Word) : Statement (.decAbs addr) := of_encode 3 rfl rfl (by decide)
theorem bne (off : Int) : Statement (.bne off) := of_encode 2 rfl rfl (by decide)
theorem cmpIndy (zp : Byte) : Statement (.cmpIndy zp) := of_encode 2 rfl rfl (by decide)
theorem cmpZpx (zp : Byte) : Statement (.cmpZpx zp) := of_encode 2 rfl rfl (by decide)
theorem decZpx (zp : Byte) : Statement (.decZpx zp) := of_encode 2 rfl rfl (by decide)
theorem cld : Statement .cld := of_encode 1 rfl rfl (by decide)
theorem cmpAbsy (addr : Word) : Statement (.cmpAbsy addr) := of_encode 3 rfl rfl (by decide)
theorem cmpAbsx (addr : Word) : Statement (.cmpAbsx addr) := of_encode 3 rfl rfl (by decide)
theorem decAbsx (addr : Word) : Statement (.decAbsx addr) := of_encode 3 rfl rfl (by decide)
theorem cpxImm (v : Byte) : Statement (.cpxImm v) := of_encode 2 rfl rfl (by decide)
theorem sbcIndx (zp : Byte) : Statement (.sbcIndx zp) := of_encode 2 rfl rfl (by decide)
theorem cpxZp (zp : Byte) : Statement (.cpxZp zp) := of_encode 2 rfl rfl (by decide)
theorem sbcZp (zp : Byte) : Statement (.sbcZp zp) := of_encode 2 rfl rfl (by decide)
theorem incZp (zp : Byte) : Statement (.incZp zp) := of_encode 2 rfl rfl (by decide)
theorem inx : Statement .inx := of_encode 1 rfl rfl (by decide)
theorem sbcImm (v : Byte) : Statement (.sbcImm v) := of_encode 2 rfl rfl (by decide)
theorem nop : Statement .nop := of_encode 1 rfl rfl (by decide)
theorem cpxAbs (addr : Word) : Statement (.cpxAbs addr) := of_encode 3 rfl rfl (by decide)
theorem sbcAbs (addr : Word) : Statement (.sbcAbs addr) := of_encode 3 rfl rfl (by decide)
theorem incAbs (addr : Word) : Statement (.incAbs addr) := of_encode 3 rfl rfl (by decide)
theorem beq (off : Int) : Statement (.beq off) := of_encode 2 rfl rfl (by decide)
theorem sbcIndy (zp : Byte) : Statement (.sbcIndy zp) := of_encode 2 rfl rfl (by decide)
theorem sbcZpx (zp : Byte) : Statement (.sbcZpx zp) := of_encode 2 rfl rfl (by decide)
theorem incZpx (zp : Byte) : Statement (.incZpx zp) := of_encode 2 rfl rfl (by decide)
theorem sed : Statement .sed := of_encode 1 rfl rfl (by decide)
theorem sbcAbsy (addr : Word) : Statement (.sbcAbsy addr) := of_encode 3 rfl rfl (by decide)
theorem sbcAbsx (addr : Word) : Statement (.sbcAbsx addr) := of_encode 3 rfl rfl (by decide)
theorem incAbsx (addr : Word) : Statement (.incAbsx addr) := of_encode 3 rfl rfl (by decide)

end Sys2Proof.Laws.LengthAgrees
end

