-- ==== Sys2Proof/Tests/Slice0.lean ====
section
/-! SUPPORT. The model's own tests. Expected results come from spec/95_test_vectors.md (the section each theorem names) and from the
encodings of spec/opcode_table.json, never from the model. The last part holds one witness per statement that has hypotheses. -/

namespace Sys2Proof.Tests

set_option Elab.async false

open Sys2Proof.Machine

/-! ## Well-formedness: one ill-formed term per check -/

theorem test_branch_operand_above_range : (Instr.bne 128).wellFormed = false := by decide
theorem test_branch_operand_below_range : (Instr.bpl (-129)).wellFormed = false := by decide
theorem test_branch_operand_at_the_ends : (Instr.bne 127).wellFormed = true ∧ (Instr.bne (-128)).wellFormed = true := by decide

/-- An image the core accepts: one page of each kind. -/
def image (id prg chr : Nat) : RomImage := { RomImage.empty with mapperId := id, prgPages := prg, chrPages := chr }

theorem test_image_is_accepted : (image 0 1 1).wellFormed = true := by decide
theorem test_image_without_prg : (image 0 0 1).wellFormed = false := by decide
theorem test_image_mapper_id : (image 256 1 1).wellFormed = false := by decide
theorem test_image_trainer_length :
    ({ image 0 1 1 with trainer := some [1, 2, 3] } : RomImage).wellFormed = false := by decide
theorem test_image_prg_past_its_pages : ({ image 0 1 1 with prg := [(0x4000, 1)] } : RomImage).wellFormed = false := by decide
theorem test_image_prg_not_rising : ({ image 0 1 1 with prg := [(2, 1), (1, 1)] } : RomImage).wellFormed = false := by decide
theorem test_image_chr_past_its_pages : ({ image 0 1 1 with chr := [(0x2000, 1)] } : RomImage).wellFormed = false := by decide
theorem test_params_default : ({} : Params).wellFormed = true := by decide
theorem test_params_ram_size : ({ ramInit := [(0x800, 1)] } : Params).wellFormed = false := by decide
theorem test_params_cart_ram_listed_zero : ({ cartRamInit := [(0, 0)] } : Params).wellFormed = false := by decide
theorem test_params_chr_ram_size : ({ chrRamInit := [(0x2000, 1)] } : Params).wellFormed = false := by decide
theorem test_params_interrupt_cycles : ({ intCycles := 0 } : Params).wellFormed = false := by decide

/-! ## Decoding: every opcode of spec/opcode_table.json with an operand written out, one theorem per mnemonic -/

theorem test_decode_brk :
    decode [0x00] = .ok (.brk, []) := by decide +kernel
theorem test_decode_ora :
    decode [0x01, 0x44] = .ok (.oraIndx 0x44, []) ∧
    decode [0x05, 0x44] = .ok (.oraZp 0x44, []) ∧
    decode [0x09, 0x44] = .ok (.oraImm 0x44, []) ∧
    decode [0x0D, 0x34, 0x12] = .ok (.oraAbs 0x1234, []) ∧
    decode [0x11, 0x44] = .ok (.oraIndy 0x44, []) ∧
    decode [0x15, 0x44] = .ok (.oraZpx 0x44, []) ∧
    decode [0x19, 0x34, 0x12] = .ok (.oraAbsy 0x1234, []) ∧
    decode [0x1D, 0x34, 0x12] = .ok (.oraAbsx 0x1234, []) := by decide +kernel
theorem test_decode_asl :
    decode [0x06, 0x44] = .ok (.aslZp 0x44, []) ∧
    decode [0x0A] = .ok (.aslAcc, []) ∧
    decode [0x0E, 0x34, 0x12] = .ok (.aslAbs 0x1234, []) ∧
    decode [0x16, 0x44] = .ok (.aslZpx 0x44, []) ∧
    decode [0x1E, 0x34, 0x12] = .ok (.aslAbsx 0x1234, []) := by decide +kernel
theorem test_decode_php :
    decode [0x08] = .ok (.php, []) := by decide +kernel
theorem test_decode_bpl :
    decode [0x10, 0xFB] = .ok (.bpl (-5), []) := by decide +kernel
theorem test_decode_clc :
    decode [0x18] = .ok (.clc, []) := by decide +kernel
theorem test_decode_jsr :
    decode [0x20, 0x34, 0x12] = .ok (.jsr 0x1234, []) := by decide +kernel
theorem test_decode_and :
    decode [0x21, 0x44] = .ok (.andIndx 0x44, []) ∧
    decode [0x25, 0x44] = .ok (.andZp 0x44, []) ∧
    decode [0x29, 0x44] = .ok (.andImm 0x44, []) ∧
    decode [0x2D, 0x34, 0x12] = .ok (.andAbs 0x1234, []) ∧
    decode [0x31, 0x44] = .ok (.andIndy 0x44, []) ∧
    decode [0x35, 0x44] = .ok (.andZpx 0x44, []) ∧
    decode [0x39, 0x34, 0x12] = .ok (.andAbsy 0x1234, []) ∧
    decode [0x3D, 0x34, 0x12] = .ok (.andAbsx 0x1234, []) := by decide +kernel
theorem test_decode_bit :
    decode [0x24, 0x44] = .ok (.bitZp 0x44, []) ∧
    decode [0x2C, 0x34, 0x12] = .ok (.bitAbs 0x1234, []) := by decide +kernel
theorem test_decode_rol :
    decode [0x26, 0x44] = .ok (.rolZp 0x44, []) ∧
    decode [0x2A] = .ok (.rolAcc, []) ∧
    decode [0x2E, 0x34, 0x12] = .ok (.rolAbs 0x1234, []) ∧
    decode [0x36, 0x44] = .ok (.rolZpx 0x44, []) ∧
    decode [0x3E, 0x34, 0x12] = .ok (.rolAbsx 0x1234, []) := by decide +kernel
theorem test_decode_plp :
    decode [0x28] = .ok (.plp, []) := by decide +kernel
theorem test_decode_bmi :
    decode [0x30, 0xFB] = .ok (.bmi (-5), []) := by decide +kernel
theorem test_decode_sec :
    decode [0x38] = .ok (.sec, []) := by decide +kernel
theorem test_decode_rti :
    decode [0x40] = .ok (.rti, []) := by decide +kernel
theorem test_decode_eor :
    decode [0x41, 0x44] = .ok (.eorIndx 0x44, []) ∧
    decode [0x45, 0x44] = .ok (.eorZp 0x44, []) ∧
    decode [0x49, 0x44] = .ok (.eorImm 0x44, []) ∧
    decode [0x4D, 0x34, 0x12] = .ok (.eorAbs 0x1234, []) ∧
    decode [0x51, 0x44] = .ok (.eorIndy 0x44, []) ∧
    decode [0x55, 0x44] = .ok (.eorZpx 0x44, []) ∧
    decode [0x59, 0x34, 0x12] = .ok (.eorAbsy 0x1234, []) ∧
    decode [0x5D, 0x34, 0x12] = .ok (.eorAbsx 0x1234, []) := by decide +kernel
theorem test_decode_lsr :
    decode [0x46, 0x44] = .ok (.lsrZp 0x44, []) ∧
    decode [0x4A] = .ok (.lsrAcc, []) ∧
    decode [0x4E, 0x34, 0x12] = .ok (.lsrAbs 0x1234, []) ∧
    decode [0x56, 0x44] = .ok (.lsrZpx 0x44, []) ∧
    decode [0x5E, 0x34, 0x12] = .ok (.lsrAbsx 0x1234, []) := by decide +kernel
theorem test_decode_pha :
    decode [0x48] = .ok (.pha, []) := by decide +kernel
theorem test_decode_jmp :
    decode [0x4C, 0x34, 0x12] = .ok (.jmpAbs 0x1234, []) ∧
    decode [0x6C, 0x34, 0x12] = .ok (.jmpInd 0x1234, []) := by decide +kernel
theorem test_decode_bvc :
    decode [0x50, 0xFB] = .ok (.bvc (-5), []) := by decide +kernel
theorem test_decode_cli :
    decode [0x58] = .ok (.cli, []) := by decide +kernel
theorem test_decode_rts :
    decode [0x60] = .ok (.rts, []) := by decide +kernel
theorem test_decode_adc :
    decode [0x61, 0x44] = .ok (.adcIndx 0x44, []) ∧
    decode [0x65, 0x44] = .ok (.adcZp 0x44, []) ∧
    decode [0x69, 0x44] = .ok (.adcImm 0x44, []) ∧
    decode [0x6D, 0x34, 0x12] = .ok (.adcAbs 0x1234, []) ∧
    decode [0x71, 0x44] = .ok (.adcIndy 0x44, []) ∧
    decode [0x75, 0x44] = .ok (.adcZpx 0x44, []) ∧
    decode [0x79, 0x34, 0x12] = .ok (.adcAbsy 0x1234, []) ∧
    decode [0x7D, 0x34, 0x12] = .ok (.adcAbsx 0x1234, []) := by decide +kernel
theorem test_decode_ror :
    decode [0x66, 0x44] = .ok (.rorZp 0x44, []) ∧
    decode [0x6A] = .ok (.rorAcc, []) ∧
    decode [0x6E, 0x34, 0x12] = .ok (.rorAbs 0x1234, []) ∧
    decode [0x76, 0x44] = .ok (.rorZpx 0x44, []) ∧
    decode [0x7E, 0x34, 0x12] = .ok (.rorAbsx 0x1234, []) := by decide +kernel
theorem test_decode_pla :
    decode [0x68] = .ok (.pla, []) := by decide +kernel
theorem test_decode_bvs :
    decode [0x70, 0xFB] = .ok (.bvs (-5), []) := by decide +kernel
theorem test_decode_sei :
    decode [0x78] = .ok (.sei, []) := by decide +kernel
theorem test_decode_sta :
    decode [0x81, 0x44] = .ok (.staIndx 0x44, []) ∧
    decode [0x85, 0x44] = .ok (.staZp 0x44, []) ∧
    decode [0x8D, 0x34, 0x12] = .ok (.staAbs 0x1234, []) ∧
    decode [0x91, 0x44] = .ok (.staIndy 0x44, []) ∧
    decode [0x95, 0x44] = .ok (.staZpx 0x44, []) ∧
    decode [0x99, 0x34, 0x12] = .ok (.staAbsy 0x1234, []) ∧
    decode [0x9D, 0x34, 0x12] = .ok (.staAbsx 0x1234, []) := by decide +kernel
theorem test_decode_sty :
    decode [0x84, 0x44] = .ok (.styZp 0x44, []) ∧
    decode [0x8C, 0x34, 0x12] = .ok (.styAbs 0x1234, []) ∧
    decode [0x94, 0x44] = .ok (.styZpx 0x44, []) := by decide +kernel
theorem test_decode_stx :
    decode [0x86, 0x44] = .ok (.stxZp 0x44, []) ∧
    decode [0x8E, 0x34, 0x12] = .ok (.stxAbs 0x1234, []) ∧
    decode [0x96, 0x44] = .ok (.stxZpy 0x44, []) := by decide +kernel
theorem test_decode_dey :
    decode [0x88] = .ok (.dey, []) := by decide +kernel
theorem test_decode_txa :
    decode [0x8A] = .ok (.txa, []) := by decide +kernel
theorem test_decode_bcc :
    decode [0x90, 0xFB] = .ok (.bcc (-5), []) := by decide +kernel
theorem test_decode_tya :
    decode [0x98] = .ok (.tya, []) := by decide +kernel
theorem test_decode_txs :
    decode [0x9A] = .ok (.txs, []) := by decide +kernel
theorem test_decode_ldy :
    decode [0xA0, 0x44] = .ok (.ldyImm 0x44, []) ∧
    decode [0xA4, 0x44] = .ok (.ldyZp 0x44, []) ∧
    decode [0xAC, 0x34, 0x12] = .ok (.ldyAbs 0x1234, []) ∧
    decode [0xB4, 0x44] = .ok (.ldyZpx 0x44, []) ∧
    decode [0xBC, 0x34, 0x12] = .ok (.ldyAbsx 0x1234, []) := by decide +kernel
theorem test_decode_lda :
    decode [0xA1, 0x44] = .ok (.ldaIndx 0x44, []) ∧
    decode [0xA5, 0x44] = .ok (.ldaZp 0x44, []) ∧
    decode [0xA9, 0x44] = .ok (.ldaImm 0x44, []) ∧
    decode [0xAD, 0x34, 0x12] = .ok (.ldaAbs 0x1234, []) ∧
    decode [0xB1, 0x44] = .ok (.ldaIndy 0x44, []) ∧
    decode [0xB5, 0x44] = .ok (.ldaZpx 0x44, []) ∧
    decode [0xB9, 0x34, 0x12] = .ok (.ldaAbsy 0x1234, []) ∧
    decode [0xBD, 0x34, 0x12] = .ok (.ldaAbsx 0x1234, []) := by decide +kernel
theorem test_decode_ldx :
    decode [0xA2, 0x44] = .ok (.ldxImm 0x44, []) ∧
    decode [0xA6, 0x44] = .ok (.ldxZp 0x44, []) ∧
    decode [0xAE, 0x34, 0x12] = .ok (.ldxAbs 0x1234, []) ∧
    decode [0xB6, 0x44] = .ok (.ldxZpy 0x44, []) ∧
    decode [0xBE, 0x34, 0x12] = .ok (.ldxAbsy 0x1234, []) := by decide +kernel
theorem test_decode_tay :
    decode [0xA8] = .ok (.tay, []) := by decide +kernel
theorem test_decode_tax :
    decode [0xAA] = .ok (.tax, []) := by decide +kernel
theorem test_decode_bcs :
    decode [0xB0, 0xFB] = .ok (.bcs (-5), []) := by decide +kernel
theorem test_decode_clv :
    decode [0xB8] = .ok (.clv, []) := by decide +kernel
theorem test_decode_tsx :
    decode [0xBA] = .ok (.tsx, []) := by decide +kernel
theorem test_decode_cpy :
    decode [0xC0, 0x44] = .ok (.cpyImm 0x44, []) ∧
    decode [0xC4, 0x44] = .ok (.cpyZp 0x44, []) ∧
    decode [0xCC, 0x34, 0x12] = .ok (.cpyAbs 0x1234, []) := by decide +kernel
theorem test_decode_cmp :
    decode [0xC1, 0x44] = .ok (.cmpIndx 0x44, []) ∧
    decode [0xC5, 0x44] = .ok (.cmpZp 0x44, []) ∧
    decode [0xC9, 0x44] = .ok (.cmpImm 0x44, []) ∧
    decode [0xCD, 0x34, 0x12] = .ok (.cmpAbs 0x1234, []) ∧
    decode [0xD1, 0x44] = .ok (.cmpIndy 0x44, []) ∧
    decode [0xD5, 0x44] = .ok (.cmpZpx 0x44, []) ∧
    decode [0xD9, 0x34, 0x12] = .ok (.cmpAbsy 0x1234, []) ∧
    decode [0xDD, 0x34, 0x12] = .ok (.cmpAbsx 0x1234, []) := by decide +kernel
theorem test_decode_dec :
    decode [0xC6, 0x44] = .ok (.decZp 0x44, []) ∧
    decode [0xCE, 0x34, 0x12] = .ok (.decAbs 0x1234, []) ∧
    decode [0xD6, 0x44] = .ok (.decZpx 0x44, []) ∧
    decode [0xDE, 0x34, 0x12] = .ok (.decAbsx 0x1234, []) := by decide +kernel
theorem test_decode_iny :
    decode [0xC8] = .ok (.iny, []) := by decide +kernel
theorem test_decode_dex :
    decode [0xCA] = .ok (.dex, []) := by decide +kernel
theorem test_decode_bne :
    decode [0xD0, 0xFB] = .ok (.bne (-5), []) := by decide +kernel
theorem test_decode_cld :
    decode [0xD8] = .ok (.cld, []) := by decide +kernel
theorem test_decode_cpx :
    decode [0xE0, 0x44] = .ok (.cpxImm 0x44, []) ∧
    decode [0xE4, 0x44] = .ok (.cpxZp 0x44, []) ∧
    decode [0xEC, 0x34, 0x12] = .ok (.cpxAbs 0x1234, []) := by decide +kernel
theorem test_decode_sbc :
    decode [0xE1, 0x44] = .ok (.sbcIndx 0x44, []) ∧
    decode [0xE5, 0x44] = .ok (.sbcZp 0x44, []) ∧
    decode [0xE9, 0x44] = .ok (.sbcImm 0x44, []) ∧
    decode [0xED, 0x34, 0x12] = .ok (.sbcAbs 0x1234, []) ∧
    decode [0xF1, 0x44] = .ok (.sbcIndy 0x44, []) ∧
    decode [0xF5, 0x44] = .ok (.sbcZpx 0x44, []) ∧
    decode [0xF9, 0x34, 0x12] = .ok (.sbcAbsy 0x1234, []) ∧
    decode [0xFD, 0x34, 0x12] = .ok (.sbcAbsx 0x1234, []) := by decide +kernel
theorem test_decode_inc :
    decode [0xE6, 0x44] = .ok (.incZp 0x44, []) ∧
    decode [0xEE, 0x34, 0x12] = .ok (.incAbs 0x1234, []) ∧
    decode [0xF6, 0x44] = .ok (.incZpx 0x44, []) ∧
    decode [0xFE, 0x34, 0x12] = .ok (.incAbsx 0x1234, []) := by decide +kernel
theorem test_decode_inx :
    decode [0xE8] = .ok (.inx, []) := by decide +kernel
theorem test_decode_nop :
    decode [0xEA] = .ok (.nop, []) := by decide +kernel
theorem test_decode_beq :
    decode [0xF0, 0xFB] = .ok (.beq (-5), []) := by decide +kernel
theorem test_decode_sed :
    decode [0xF8] = .ok (.sed, []) := by decide +kernel

theorem test_decode_illegal : decode [0x02] = .error (.illegalOpcode 0x02) ∧ decode [0xEB, 0x01] = .error (.illegalOpcode 0xEB) ∧
    decode [0xFF] = .error (.illegalOpcode 0xFF) := by decide +kernel
theorem test_decode_truncated : decode [] = .error .truncated ∧ decode [0xAD, 0x34] = .error .truncated := by decide +kernel
theorem test_decode_table_word : decodeTableWord 16 0x42A9 = some (.ldaImm 0x42) ∧ decodeTableWord 8 0x20 = some (.jsr 0) ∧
    decodeTableWord 24 0x123420 = some (.jsr 0x1234) ∧ decodeTableWord 8 0x02 = none := by decide +kernel

/-! ## Instructions: the vectors of spec/95_test_vectors.md V30 and V40 to V44

The machine before an instruction: the empty cartridge's, with bytes placed at PC and elsewhere and the registers given. The flags are
written as the byte N V 1 B D I Z C. -/

/-- The flags a byte stands for. -/
def flagsOf (v : Nat) : Flags :=
  ⟨v.testBit 7, v.testBit 6, v.testBit 4, v.testBit 3, v.testBit 2, v.testBit 1, v.testBit 0⟩

/-- Place single bytes. -/
def placed (cells : List (Nat × Nat)) (s : State) : State :=
  cells.foldl (fun s c => placeByte (BitVec.ofNat 16 c.1) (BitVec.ofNat 8 c.2) s) s

/-- Registers as numbers. -/
structure Regs where
  pc : Nat
  a : Nat
  x : Nat
  y : Nat
  sp : Nat
  p : Nat
  deriving DecidableEq, Repr

/-- The machine before a step. -/
def before (bytes : List Nat) (cells : List (Nat × Nat)) (r : Regs) : State :=
  let s := placed cells (placeBytes (BitVec.ofNat 16 r.pc) (bytes.map (BitVec.ofNat 8)) State.reset)
  { s with cpu := { s.cpu with
    pc := BitVec.ofNat 16 r.pc
    a := BitVec.ofNat 8 r.a
    x := BitVec.ofNat 8 r.x
    y := BitVec.ofNat 8 r.y
    sp := BitVec.ofNat 8 r.sp
    p := flagsOf r.p } }

/-- What a step leaves: the registers, the cycles, and the bytes at some addresses. -/
def left (o : Result) (addrs : List Nat) : Option (Regs × Nat × List (Option Nat)) :=
  match o with
  | .next s => some (⟨s.cpu.pc.toNat, s.cpu.a.toNat, s.cpu.x.toNat, s.cpu.y.toNat, s.cpu.sp.toNat,
      (statusByte s.cpu.p s.cpu.p.b).toNat⟩, s.cpu.cycles, addrs.map (fun a => (peek s (BitVec.ofNat 16 a)).map BitVec.toNat))
  | _ => none

/-- The fault a step ends in. -/
def faultOf (o : Result) : Option Fault :=
  match o with
  | .fault f => some f
  | _ => none

/-- V40 B1 FF Y=$10; $00FF=$F8, $0000=$02, $0308=$77. -/
theorem test_lda_indy :
    left (step (before [0xB1, 0xFF] [(0x00FF, 0xF8), (0x0000, 0x02), (0x0308, 0x77)] ⟨0x8000, 0x00, 0x00, 0x10, 0xFD, 0x34⟩)) [] =
      some (⟨0x8002, 0x77, 0x00, 0x10, 0xFD, 0x34⟩, 6, []) := by decide +kernel
/-- V40 B1 20 Y=$01; $0020=$00, $0021=$03, $0301=$80. -/
theorem test_lda_indy_b :
    left (step (before [0xB1, 0x20] [(0x0020, 0x00), (0x0021, 0x03), (0x0301, 0x80)] ⟨0x8000, 0x00, 0x00, 0x01, 0xFD, 0x34⟩)) [] =
      some (⟨0x8002, 0x80, 0x00, 0x01, 0xFD, 0xB4⟩, 5, []) := by decide +kernel
/-- V40 B6 F0 Y=$20; $0010=$01. -/
theorem test_ldx_zpy :
    left (step (before [0xB6, 0xF0] [(0x0010, 0x01)] ⟨0x8000, 0x00, 0x00, 0x20, 0xFD, 0x34⟩)) [] =
      some (⟨0x8002, 0x00, 0x01, 0x20, 0xFD, 0x34⟩, 4, []) := by decide +kernel
/-- V40 AE 00 03 $0300=$80. -/
theorem test_ldx_abs :
    left (step (before [0xAE, 0x00, 0x03] [(0x0300, 0x80)] ⟨0x8000, 0x00, 0x00, 0x00, 0xFD, 0x34⟩)) [] =
      some (⟨0x8003, 0x00, 0x80, 0x00, 0xFD, 0xB4⟩, 4, []) := by decide +kernel
/-- V40 BC 80 02 X=$80; $0300=$FF. -/
theorem test_ldy_absx :
    left (step (before [0xBC, 0x80, 0x02] [(0x0300, 0xFF)] ⟨0x8000, 0x00, 0x80, 0x00, 0xFD, 0x34⟩)) [] =
      some (⟨0x8003, 0x00, 0x80, 0xFF, 0xFD, 0xB4⟩, 5, []) := by decide +kernel
/-- V40 85 10 N1. -/
theorem test_sta_zp :
    left (step (before [0x85, 0x10] [] ⟨0x8000, 0x00, 0x00, 0x00, 0xFD, 0xB4⟩)) [0x0010] =
      some (⟨0x8002, 0x00, 0x00, 0x00, 0xFD, 0xB4⟩, 3, [some 0x00]) := by decide +kernel
/-- V40 99 00 02 A=$56. -/
theorem test_sta_absy :
    left (step (before [0x99, 0x00, 0x02] [] ⟨0x8000, 0x56, 0x00, 0x00, 0xFD, 0x34⟩)) [0x0200] =
      some (⟨0x8003, 0x56, 0x00, 0x00, 0xFD, 0x34⟩, 5, [some 0x56]) := by decide +kernel
/-- V40 91 10 A=$88 Y=$FF; $0010=$01, $0011=$03. -/
theorem test_sta_indy :
    left (step (before [0x91, 0x10] [(0x0010, 0x01), (0x0011, 0x03)] ⟨0x8000, 0x88, 0x00, 0xFF, 0xFD, 0x34⟩)) [0x0400] =
      some (⟨0x8002, 0x88, 0x00, 0xFF, 0xFD, 0x34⟩, 6, [some 0x88]) := by decide +kernel
/-- V40 96 FF X=$01 Y=$01. -/
theorem test_stx_zpy :
    left (step (before [0x96, 0xFF] [] ⟨0x8000, 0x00, 0x01, 0x01, 0xFD, 0x34⟩)) [0x0000] =
      some (⟨0x8002, 0x00, 0x01, 0x01, 0xFD, 0x34⟩, 4, [some 0x01]) := by decide +kernel
/-- V40 8E FF 07 X=$02. -/
theorem test_stx_abs :
    left (step (before [0x8E, 0xFF, 0x07] [] ⟨0x8000, 0x00, 0x02, 0x00, 0xFD, 0x34⟩)) [0x07FF] =
      some (⟨0x8003, 0x00, 0x02, 0x00, 0xFD, 0x34⟩, 4, [some 0x02]) := by decide +kernel
/-- V40 94 10 X=$05 Y=$03. -/
theorem test_sty_zpx :
    left (step (before [0x94, 0x10] [] ⟨0x8000, 0x00, 0x05, 0x03, 0xFD, 0x34⟩)) [0x0015] =
      some (⟨0x8002, 0x00, 0x05, 0x03, 0xFD, 0x34⟩, 4, [some 0x03]) := by decide +kernel
/-- V40 8C 00 03 Y=$04. -/
theorem test_sty_abs :
    left (step (before [0x8C, 0x00, 0x03] [] ⟨0x8000, 0x00, 0x00, 0x04, 0xFD, 0x34⟩)) [0x0300] =
      some (⟨0x8003, 0x00, 0x00, 0x04, 0xFD, 0x34⟩, 4, [some 0x04]) := by decide +kernel
/-- V40 AA A=$80 X=$01. -/
theorem test_tax_imp :
    left (step (before [0xAA] [] ⟨0x8000, 0x80, 0x01, 0x00, 0xFD, 0x34⟩)) [] =
      some (⟨0x8001, 0x80, 0x80, 0x00, 0xFD, 0xB4⟩, 2, []) := by decide +kernel
/-- V40 A8 Y=$01. -/
theorem test_tay_imp :
    left (step (before [0xA8] [] ⟨0x8000, 0x00, 0x00, 0x01, 0xFD, 0x34⟩)) [] =
      some (⟨0x8001, 0x00, 0x00, 0x00, 0xFD, 0x36⟩, 2, []) := by decide +kernel
/-- V40 8A X=$7F N1. -/
theorem test_txa_imp :
    left (step (before [0x8A] [] ⟨0x8000, 0x00, 0x7F, 0x00, 0xFD, 0xB4⟩)) [] =
      some (⟨0x8001, 0x7F, 0x7F, 0x00, 0xFD, 0x34⟩, 2, []) := by decide +kernel
/-- V40 98 Y=$FF. -/
theorem test_tya_imp :
    left (step (before [0x98] [] ⟨0x8000, 0x00, 0x00, 0xFF, 0xFD, 0x34⟩)) [] =
      some (⟨0x8001, 0xFF, 0x00, 0xFF, 0xFD, 0xB4⟩, 2, []) := by decide +kernel
/-- V40 BA defaults. -/
theorem test_tsx_imp :
    left (step (before [0xBA] [] ⟨0x8000, 0x00, 0x00, 0x00, 0xFD, 0x34⟩)) [] =
      some (⟨0x8001, 0x00, 0xFD, 0x00, 0xFD, 0xB4⟩, 2, []) := by decide +kernel
/-- V40 9A X=$FF. -/
theorem test_txs_imp :
    left (step (before [0x9A] [] ⟨0x8000, 0x00, 0xFF, 0x00, 0xFD, 0x34⟩)) [] =
      some (⟨0x8001, 0x00, 0xFF, 0x00, 0xFF, 0x34⟩, 2, []) := by decide +kernel
/-- V41 69 80 A=$80 C1. -/
theorem test_adc_imm :
    left (step (before [0x69, 0x80] [] ⟨0x8000, 0x80, 0x00, 0x00, 0xFD, 0x35⟩)) [] =
      some (⟨0x8002, 0x01, 0x00, 0x00, 0xFD, 0x75⟩, 2, []) := by decide +kernel
/-- V41 69 00 defaults. -/
theorem test_adc_imm_b :
    left (step (before [0x69, 0x00] [] ⟨0x8000, 0x00, 0x00, 0x00, 0xFD, 0x34⟩)) [] =
      some (⟨0x8002, 0x00, 0x00, 0x00, 0xFD, 0x36⟩, 2, []) := by decide +kernel
/-- V41 E9 01 A=$80 C1. -/
theorem test_sbc_imm :
    left (step (before [0xE9, 0x01] [] ⟨0x8000, 0x80, 0x00, 0x00, 0xFD, 0x35⟩)) [] =
      some (⟨0x8002, 0x7F, 0x00, 0x00, 0xFD, 0x75⟩, 2, []) := by decide +kernel
/-- V41 E9 01 A=$10 D1 C1. -/
theorem test_sbc_imm_b :
    left (step (before [0xE9, 0x01] [] ⟨0x8000, 0x10, 0x00, 0x00, 0xFD, 0x3D⟩)) [] =
      some (⟨0x8002, 0x0F, 0x00, 0x00, 0xFD, 0x3D⟩, 2, []) := by decide +kernel
/-- V41 25 10 A=$3C; $0010=$18. -/
theorem test_and_zp :
    left (step (before [0x25, 0x10] [(0x0010, 0x18)] ⟨0x8000, 0x3C, 0x00, 0x00, 0xFD, 0x34⟩)) [] =
      some (⟨0x8002, 0x18, 0x00, 0x00, 0xFD, 0x34⟩, 3, []) := by decide +kernel
/-- V41 3D 00 03 A=$FF X=$01; $0301=$7F. -/
theorem test_and_absx :
    left (step (before [0x3D, 0x00, 0x03] [(0x0301, 0x7F)] ⟨0x8000, 0xFF, 0x01, 0x00, 0xFD, 0x34⟩)) [] =
      some (⟨0x8003, 0x7F, 0x01, 0x00, 0xFD, 0x34⟩, 4, []) := by decide +kernel
/-- V41 11 10 A=$01; $0010=$00, $0011=$03, $0300=$02. -/
theorem test_ora_indy :
    left (step (before [0x11, 0x10] [(0x0010, 0x00), (0x0011, 0x03), (0x0300, 0x02)] ⟨0x8000, 0x01, 0x00, 0x00, 0xFD, 0x34⟩)) [] =
      some (⟨0x8002, 0x03, 0x00, 0x00, 0xFD, 0x34⟩, 5, []) := by decide +kernel
/-- V41 49 FF A=$FF. -/
theorem test_eor_imm :
    left (step (before [0x49, 0xFF] [] ⟨0x8000, 0xFF, 0x00, 0x00, 0xFD, 0x34⟩)) [] =
      some (⟨0x8002, 0x00, 0x00, 0x00, 0xFD, 0x36⟩, 2, []) := by decide +kernel
/-- V41 45 10 A=$AA; $0010=$0F. -/
theorem test_eor_zp :
    left (step (before [0x45, 0x10] [(0x0010, 0x0F)] ⟨0x8000, 0xAA, 0x00, 0x00, 0xFD, 0x34⟩)) [] =
      some (⟨0x8002, 0xA5, 0x00, 0x00, 0xFD, 0xB4⟩, 3, []) := by decide +kernel
/-- V41 C9 40 A=$40 N1. -/
theorem test_cmp_imm :
    left (step (before [0xC9, 0x40] [] ⟨0x8000, 0x40, 0x00, 0x00, 0xFD, 0xB4⟩)) [] =
      some (⟨0x8002, 0x40, 0x00, 0x00, 0xFD, 0x37⟩, 2, []) := by decide +kernel
/-- V41 C9 3F A=$40. -/
theorem test_cmp_imm_b :
    left (step (before [0xC9, 0x3F] [] ⟨0x8000, 0x40, 0x00, 0x00, 0xFD, 0x34⟩)) [] =
      some (⟨0x8002, 0x40, 0x00, 0x00, 0xFD, 0x35⟩, 2, []) := by decide +kernel
/-- V41 C9 00 A=$80 V1. -/
theorem test_cmp_imm_c :
    left (step (before [0xC9, 0x00] [] ⟨0x8000, 0x80, 0x00, 0x00, 0xFD, 0x74⟩)) [] =
      some (⟨0x8002, 0x80, 0x00, 0x00, 0xFD, 0xF5⟩, 2, []) := by decide +kernel
/-- V41 E0 10 X=$10. -/
theorem test_cpx_imm :
    left (step (before [0xE0, 0x10] [] ⟨0x8000, 0x00, 0x10, 0x00, 0xFD, 0x34⟩)) [] =
      some (⟨0x8002, 0x00, 0x10, 0x00, 0xFD, 0x37⟩, 2, []) := by decide +kernel
/-- V41 EC 00 03 X=$FF; $0300=$7F. -/
theorem test_cpx_abs :
    left (step (before [0xEC, 0x00, 0x03] [(0x0300, 0x7F)] ⟨0x8000, 0x00, 0xFF, 0x00, 0xFD, 0x34⟩)) [] =
      some (⟨0x8003, 0x00, 0xFF, 0x00, 0xFD, 0xB5⟩, 4, []) := by decide +kernel
/-- V41 C0 00 defaults. -/
theorem test_cpy_imm :
    left (step (before [0xC0, 0x00] [] ⟨0x8000, 0x00, 0x00, 0x00, 0xFD, 0x34⟩)) [] =
      some (⟨0x8002, 0x00, 0x00, 0x00, 0xFD, 0x37⟩, 2, []) := by decide +kernel
/-- V41 CC 00 03 Y=$80; $0300=$7F. -/
theorem test_cpy_abs :
    left (step (before [0xCC, 0x00, 0x03] [(0x0300, 0x7F)] ⟨0x8000, 0x00, 0x00, 0x80, 0xFD, 0x34⟩)) [] =
      some (⟨0x8003, 0x00, 0x00, 0x80, 0xFD, 0x35⟩, 4, []) := by decide +kernel
/-- V41 24 10 A=$0F; $0010=$C0. -/
theorem test_bit_zp :
    left (step (before [0x24, 0x10] [(0x0010, 0xC0)] ⟨0x8000, 0x0F, 0x00, 0x00, 0xFD, 0x34⟩)) [] =
      some (⟨0x8002, 0x0F, 0x00, 0x00, 0xFD, 0xF6⟩, 3, []) := by decide +kernel
/-- V41 24 10 A=$FF N1 V1; $0010=$3F. -/
theorem test_bit_zp_b :
    left (step (before [0x24, 0x10] [(0x0010, 0x3F)] ⟨0x8000, 0xFF, 0x00, 0x00, 0xFD, 0xF4⟩)) [] =
      some (⟨0x8002, 0xFF, 0x00, 0x00, 0xFD, 0x34⟩, 3, []) := by decide +kernel
/-- V42 0A A=$40 C1. -/
theorem test_asl_acc :
    left (step (before [0x0A] [] ⟨0x8000, 0x40, 0x00, 0x00, 0xFD, 0x35⟩)) [] =
      some (⟨0x8001, 0x80, 0x00, 0x00, 0xFD, 0xB4⟩, 2, []) := by decide +kernel
/-- V42 1E FF 02 X=$01; $0300=$FF. -/
theorem test_asl_absx :
    left (step (before [0x1E, 0xFF, 0x02] [(0x0300, 0xFF)] ⟨0x8000, 0x00, 0x01, 0x00, 0xFD, 0x34⟩)) [0x0300] =
      some (⟨0x8003, 0x00, 0x01, 0x00, 0xFD, 0xB5⟩, 7, [some 0xFE]) := by decide +kernel
/-- V42 46 10 $0010=$FF. -/
theorem test_lsr_zp :
    left (step (before [0x46, 0x10] [(0x0010, 0xFF)] ⟨0x8000, 0x00, 0x00, 0x00, 0xFD, 0x34⟩)) [0x0010] =
      some (⟨0x8002, 0x00, 0x00, 0x00, 0xFD, 0x35⟩, 5, [some 0x7F]) := by decide +kernel
/-- V42 56 10 X=$01; $0011=$02. -/
theorem test_lsr_zpx :
    left (step (before [0x56, 0x10] [(0x0011, 0x02)] ⟨0x8000, 0x00, 0x01, 0x00, 0xFD, 0x34⟩)) [0x0011] =
      some (⟨0x8002, 0x00, 0x01, 0x00, 0xFD, 0x34⟩, 6, [some 0x01]) := by decide +kernel
/-- V42 2A A=$40 C1. -/
theorem test_rol_acc :
    left (step (before [0x2A] [] ⟨0x8000, 0x40, 0x00, 0x00, 0xFD, 0x35⟩)) [] =
      some (⟨0x8001, 0x81, 0x00, 0x00, 0xFD, 0xB4⟩, 2, []) := by decide +kernel
/-- V42 2E 00 03 C1; $0300=$7F. -/
theorem test_rol_abs :
    left (step (before [0x2E, 0x00, 0x03] [(0x0300, 0x7F)] ⟨0x8000, 0x00, 0x00, 0x00, 0xFD, 0x35⟩)) [0x0300] =
      some (⟨0x8003, 0x00, 0x00, 0x00, 0xFD, 0xB4⟩, 6, [some 0xFF]) := by decide +kernel
/-- V42 6A C1. -/
theorem test_ror_acc :
    left (step (before [0x6A] [] ⟨0x8000, 0x00, 0x00, 0x00, 0xFD, 0x35⟩)) [] =
      some (⟨0x8001, 0x80, 0x00, 0x00, 0xFD, 0xB4⟩, 2, []) := by decide +kernel
/-- V42 76 10 X=$01; $0011=$02. -/
theorem test_ror_zpx :
    left (step (before [0x76, 0x10] [(0x0011, 0x02)] ⟨0x8000, 0x00, 0x01, 0x00, 0xFD, 0x34⟩)) [0x0011] =
      some (⟨0x8002, 0x00, 0x01, 0x00, 0xFD, 0x34⟩, 6, [some 0x01]) := by decide +kernel
/-- V42 E6 10 C1; $0010=$7F. -/
theorem test_inc_zp :
    left (step (before [0xE6, 0x10] [(0x0010, 0x7F)] ⟨0x8000, 0x00, 0x00, 0x00, 0xFD, 0x35⟩)) [0x0010] =
      some (⟨0x8002, 0x00, 0x00, 0x00, 0xFD, 0xB5⟩, 5, [some 0x80]) := by decide +kernel
/-- V42 FE FF 02 X=$01; $0300=$10. -/
theorem test_inc_absx :
    left (step (before [0xFE, 0xFF, 0x02] [(0x0300, 0x10)] ⟨0x8000, 0x00, 0x01, 0x00, 0xFD, 0x34⟩)) [0x0300] =
      some (⟨0x8003, 0x00, 0x01, 0x00, 0xFD, 0x34⟩, 7, [some 0x11]) := by decide +kernel
/-- V42 C6 10 $0010=$00. -/
theorem test_dec_zp :
    left (step (before [0xC6, 0x10] [(0x0010, 0x00)] ⟨0x8000, 0x00, 0x00, 0x00, 0xFD, 0x34⟩)) [0x0010] =
      some (⟨0x8002, 0x00, 0x00, 0x00, 0xFD, 0xB4⟩, 5, [some 0xFF]) := by decide +kernel
/-- V42 D6 10 X=$01; $0011=$80. -/
theorem test_dec_zpx :
    left (step (before [0xD6, 0x10] [(0x0011, 0x80)] ⟨0x8000, 0x00, 0x01, 0x00, 0xFD, 0x34⟩)) [0x0011] =
      some (⟨0x8002, 0x00, 0x01, 0x00, 0xFD, 0x34⟩, 6, [some 0x7F]) := by decide +kernel
/-- V42 E8 X=$FF. -/
theorem test_inx_imp :
    left (step (before [0xE8] [] ⟨0x8000, 0x00, 0xFF, 0x00, 0xFD, 0x34⟩)) [] =
      some (⟨0x8001, 0x00, 0x00, 0x00, 0xFD, 0x36⟩, 2, []) := by decide +kernel
/-- V42 C8 Y=$FF. -/
theorem test_iny_imp :
    left (step (before [0xC8] [] ⟨0x8000, 0x00, 0x00, 0xFF, 0xFD, 0x34⟩)) [] =
      some (⟨0x8001, 0x00, 0x00, 0x00, 0xFD, 0x36⟩, 2, []) := by decide +kernel
/-- V42 CA defaults. -/
theorem test_dex_imp :
    left (step (before [0xCA] [] ⟨0x8000, 0x00, 0x00, 0x00, 0xFD, 0x34⟩)) [] =
      some (⟨0x8001, 0x00, 0xFF, 0x00, 0xFD, 0xB4⟩, 2, []) := by decide +kernel
/-- V42 88 defaults. -/
theorem test_dey_imp :
    left (step (before [0x88] [] ⟨0x8000, 0x00, 0x00, 0x00, 0xFD, 0x34⟩)) [] =
      some (⟨0x8001, 0x00, 0x00, 0xFF, 0xFD, 0xB4⟩, 2, []) := by decide +kernel
/-- V43 4C 34 92 defaults. -/
theorem test_jmp_abs :
    left (step (before [0x4C, 0x34, 0x92] [] ⟨0x8000, 0x00, 0x00, 0x00, 0xFD, 0x34⟩)) [] =
      some (⟨0x9234, 0x00, 0x00, 0x00, 0xFD, 0x34⟩, 3, []) := by decide +kernel
/-- V43 6C FF 02 $02FF=$00, $0200=$90, $0300=$A0. -/
theorem test_jmp_ind :
    left (step (before [0x6C, 0xFF, 0x02] [(0x02FF, 0x00), (0x0200, 0x90), (0x0300, 0xA0)] ⟨0x8000, 0x00, 0x00, 0x00, 0xFD, 0x34⟩)) [] =
      some (⟨0x9000, 0x00, 0x00, 0x00, 0xFD, 0x34⟩, 5, []) := by decide +kernel
/-- V43 20 00 90 PC=$80FE. -/
theorem test_jsr_abs :
    left (step (before [0x20, 0x00, 0x90] [] ⟨0x80FE, 0x00, 0x00, 0x00, 0xFD, 0x34⟩)) [0x01FD, 0x01FC] =
      some (⟨0x9000, 0x00, 0x00, 0x00, 0xFB, 0x34⟩, 6, [some 0x81, some 0x00]) := by decide +kernel
/-- V43 20 00 90 SP=$00. -/
theorem test_jsr_abs_b :
    left (step (before [0x20, 0x00, 0x90] [] ⟨0x8000, 0x00, 0x00, 0x00, 0x00, 0x34⟩)) [0x0100, 0x01FF] =
      some (⟨0x9000, 0x00, 0x00, 0x00, 0xFE, 0x34⟩, 6, [some 0x80, some 0x02]) := by decide +kernel
/-- V43 60 PC=$9000; SP=$FB; $01FC=$02, $01FD=$80. -/
theorem test_rts_imp :
    left (step (before [0x60] [(0x01FC, 0x02), (0x01FD, 0x80)] ⟨0x9000, 0x00, 0x00, 0x00, 0xFB, 0x34⟩)) [] =
      some (⟨0x8003, 0x00, 0x00, 0x00, 0xFD, 0x34⟩, 6, []) := by decide +kernel
/-- V43 60 PC=$9000; SP=$FE; $01FF=$FF, $0100=$FF. -/
theorem test_rts_imp_b :
    left (step (before [0x60] [(0x01FF, 0xFF), (0x0100, 0xFF)] ⟨0x9000, 0x00, 0x00, 0x00, 0xFE, 0x34⟩)) [] =
      some (⟨0x0000, 0x00, 0x00, 0x00, 0x00, 0x34⟩, 6, []) := by decide +kernel
/-- V43 90 10 defaults. -/
theorem test_bcc_rel :
    left (step (before [0x90, 0x10] [] ⟨0x8000, 0x00, 0x00, 0x00, 0xFD, 0x34⟩)) [] =
      some (⟨0x8012, 0x00, 0x00, 0x00, 0xFD, 0x34⟩, 3, []) := by decide +kernel
/-- V43 90 10 C1. -/
theorem test_bcc_rel_b :
    left (step (before [0x90, 0x10] [] ⟨0x8000, 0x00, 0x00, 0x00, 0xFD, 0x35⟩)) [] =
      some (⟨0x8002, 0x00, 0x00, 0x00, 0xFD, 0x35⟩, 2, []) := by decide +kernel
/-- V43 B0 10 defaults. -/
theorem test_bcs_rel :
    left (step (before [0xB0, 0x10] [] ⟨0x8000, 0x00, 0x00, 0x00, 0xFD, 0x34⟩)) [] =
      some (⟨0x8002, 0x00, 0x00, 0x00, 0xFD, 0x34⟩, 2, []) := by decide +kernel
/-- V43 B0 10 C1. -/
theorem test_bcs_rel_b :
    left (step (before [0xB0, 0x10] [] ⟨0x8000, 0x00, 0x00, 0x00, 0xFD, 0x35⟩)) [] =
      some (⟨0x8012, 0x00, 0x00, 0x00, 0xFD, 0x35⟩, 3, []) := by decide +kernel
/-- V43 F0 10 defaults. -/
theorem test_beq_rel :
    left (step (before [0xF0, 0x10] [] ⟨0x8000, 0x00, 0x00, 0x00, 0xFD, 0x34⟩)) [] =
      some (⟨0x8002, 0x00, 0x00, 0x00, 0xFD, 0x34⟩, 2, []) := by decide +kernel
/-- V43 F0 10 Z1. -/
theorem test_beq_rel_b :
    left (step (before [0xF0, 0x10] [] ⟨0x8000, 0x00, 0x00, 0x00, 0xFD, 0x36⟩)) [] =
      some (⟨0x8012, 0x00, 0x00, 0x00, 0xFD, 0x36⟩, 3, []) := by decide +kernel
/-- V43 D0 10 Z1. -/
theorem test_bne_rel :
    left (step (before [0xD0, 0x10] [] ⟨0x8000, 0x00, 0x00, 0x00, 0xFD, 0x36⟩)) [] =
      some (⟨0x8002, 0x00, 0x00, 0x00, 0xFD, 0x36⟩, 2, []) := by decide +kernel
/-- V43 30 10 N1. -/
theorem test_bmi_rel :
    left (step (before [0x30, 0x10] [] ⟨0x8000, 0x00, 0x00, 0x00, 0xFD, 0xB4⟩)) [] =
      some (⟨0x8012, 0x00, 0x00, 0x00, 0xFD, 0xB4⟩, 3, []) := by decide +kernel
/-- V43 10 10 defaults. -/
theorem test_bpl_rel :
    left (step (before [0x10, 0x10] [] ⟨0x8000, 0x00, 0x00, 0x00, 0xFD, 0x34⟩)) [] =
      some (⟨0x8012, 0x00, 0x00, 0x00, 0xFD, 0x34⟩, 3, []) := by decide +kernel
/-- V43 10 10 N1. -/
theorem test_bpl_rel_b :
    left (step (before [0x10, 0x10] [] ⟨0x8000, 0x00, 0x00, 0x00, 0xFD, 0xB4⟩)) [] =
      some (⟨0x8002, 0x00, 0x00, 0x00, 0xFD, 0xB4⟩, 2, []) := by decide +kernel
/-- V43 50 10 defaults. -/
theorem test_bvc_rel :
    left (step (before [0x50, 0x10] [] ⟨0x8000, 0x00, 0x00, 0x00, 0xFD, 0x34⟩)) [] =
      some (⟨0x8012, 0x00, 0x00, 0x00, 0xFD, 0x34⟩, 3, []) := by decide +kernel
/-- V43 50 10 V1. -/
theorem test_bvc_rel_b :
    left (step (before [0x50, 0x10] [] ⟨0x8000, 0x00, 0x00, 0x00, 0xFD, 0x74⟩)) [] =
      some (⟨0x8002, 0x00, 0x00, 0x00, 0xFD, 0x74⟩, 2, []) := by decide +kernel
/-- V43 70 10 defaults. -/
theorem test_bvs_rel :
    left (step (before [0x70, 0x10] [] ⟨0x8000, 0x00, 0x00, 0x00, 0xFD, 0x34⟩)) [] =
      some (⟨0x8002, 0x00, 0x00, 0x00, 0xFD, 0x34⟩, 2, []) := by decide +kernel
/-- V43 D0 20 PC=$FFF0. -/
theorem test_bne_rel_b :
    left (step (before [0xD0, 0x20] [] ⟨0xFFF0, 0x00, 0x00, 0x00, 0xFD, 0x34⟩)) [] =
      some (⟨0x0012, 0x00, 0x00, 0x00, 0xFD, 0x34⟩, 4, []) := by decide +kernel
/-- V43 00 FF I0 Z1 C1; $FFFE=$00, $FFFF=$90. -/
theorem test_brk_imp :
    left (step (before [0x00, 0xFF] [(0xFFFE, 0x00), (0xFFFF, 0x90)] ⟨0x8000, 0x00, 0x00, 0x00, 0xFD, 0x33⟩)) [0x01FD, 0x01FC, 0x01FB] =
      some (⟨0x9000, 0x00, 0x00, 0x00, 0xFA, 0x37⟩, 7, [some 0x80, some 0x02, some 0x33]) := by decide +kernel
/-- V43 00 SP=$01; $FFFE=$34, $FFFF=$92. -/
theorem test_brk_imp_b :
    left (step (before [0x00] [(0xFFFE, 0x34), (0xFFFF, 0x92)] ⟨0x8000, 0x00, 0x00, 0x00, 0x01, 0x34⟩)) [0x0101, 0x0100, 0x01FF] =
      some (⟨0x9234, 0x00, 0x00, 0x00, 0xFE, 0x34⟩, 7, [some 0x80, some 0x02, some 0x34]) := by decide +kernel
/-- V43 40 PC=$9000; SP=$FA; $01FB=$33, $01FC=$02, $01FD=$80. -/
theorem test_rti_imp :
    left (step (before [0x40] [(0x01FB, 0x33), (0x01FC, 0x02), (0x01FD, 0x80)] ⟨0x9000, 0x00, 0x00, 0x00, 0xFA, 0x34⟩)) [] =
      some (⟨0x8002, 0x00, 0x00, 0x00, 0xFD, 0x33⟩, 6, []) := by decide +kernel
/-- V43 40 PC=$9000; SP=$FA B0; $01FB=$C3, $01FC=$00, $01FD=$80. -/
theorem test_rti_imp_b :
    left (step (before [0x40] [(0x01FB, 0xC3), (0x01FC, 0x00), (0x01FD, 0x80)] ⟨0x9000, 0x00, 0x00, 0x00, 0xFA, 0x24⟩)) [] =
      some (⟨0x8000, 0x00, 0x00, 0x00, 0xFD, 0xF3⟩, 6, []) := by decide +kernel
/-- V44 48 SP=$00. -/
theorem test_pha_imp :
    left (step (before [0x48] [] ⟨0x8000, 0x00, 0x00, 0x00, 0x00, 0x34⟩)) [0x0100] =
      some (⟨0x8001, 0x00, 0x00, 0x00, 0xFF, 0x34⟩, 3, [some 0x00]) := by decide +kernel
/-- V44 68 SP=$FF; $0100=$7F. -/
theorem test_pla_imp :
    left (step (before [0x68] [(0x0100, 0x7F)] ⟨0x8000, 0x00, 0x00, 0x00, 0xFF, 0x34⟩)) [] =
      some (⟨0x8001, 0x7F, 0x00, 0x00, 0x00, 0x34⟩, 4, []) := by decide +kernel
/-- V44 08 N1 V1 B0 D1 Z1 C1. -/
theorem test_php_imp :
    left (step (before [0x08] [] ⟨0x8000, 0x00, 0x00, 0x00, 0xFD, 0xEF⟩)) [0x01FD] =
      some (⟨0x8001, 0x00, 0x00, 0x00, 0xFC, 0xEF⟩, 3, [some 0xFF]) := by decide +kernel
/-- V44 28 SP=$FC B0; $01FD=$C3. -/
theorem test_plp_imp :
    left (step (before [0x28] [(0x01FD, 0xC3)] ⟨0x8000, 0x00, 0x00, 0x00, 0xFC, 0x24⟩)) [] =
      some (⟨0x8001, 0x00, 0x00, 0x00, 0xFD, 0xE3⟩, 4, []) := by decide +kernel
/-- V44 18 C1. -/
theorem test_clc_imp :
    left (step (before [0x18] [] ⟨0x8000, 0x00, 0x00, 0x00, 0xFD, 0x35⟩)) [] =
      some (⟨0x8001, 0x00, 0x00, 0x00, 0xFD, 0x34⟩, 2, []) := by decide +kernel
/-- V44 38 defaults. -/
theorem test_sec_imp :
    left (step (before [0x38] [] ⟨0x8000, 0x00, 0x00, 0x00, 0xFD, 0x34⟩)) [] =
      some (⟨0x8001, 0x00, 0x00, 0x00, 0xFD, 0x35⟩, 2, []) := by decide +kernel
/-- V44 58 defaults. -/
theorem test_cli_imp :
    left (step (before [0x58] [] ⟨0x8000, 0x00, 0x00, 0x00, 0xFD, 0x34⟩)) [] =
      some (⟨0x8001, 0x00, 0x00, 0x00, 0xFD, 0x30⟩, 2, []) := by decide +kernel
/-- V44 78 I0. -/
theorem test_sei_imp :
    left (step (before [0x78] [] ⟨0x8000, 0x00, 0x00, 0x00, 0xFD, 0x30⟩)) [] =
      some (⟨0x8001, 0x00, 0x00, 0x00, 0xFD, 0x34⟩, 2, []) := by decide +kernel
/-- V44 B8 V1. -/
theorem test_clv_imp :
    left (step (before [0xB8] [] ⟨0x8000, 0x00, 0x00, 0x00, 0xFD, 0x74⟩)) [] =
      some (⟨0x8001, 0x00, 0x00, 0x00, 0xFD, 0x34⟩, 2, []) := by decide +kernel
/-- V44 D8 D1. -/
theorem test_cld_imp :
    left (step (before [0xD8] [] ⟨0x8000, 0x00, 0x00, 0x00, 0xFD, 0x3C⟩)) [] =
      some (⟨0x8001, 0x00, 0x00, 0x00, 0xFD, 0x34⟩, 2, []) := by decide +kernel
/-- V44 F8 defaults. -/
theorem test_sed_imp :
    left (step (before [0xF8] [] ⟨0x8000, 0x00, 0x00, 0x00, 0xFD, 0x34⟩)) [] =
      some (⟨0x8001, 0x00, 0x00, 0x00, 0xFD, 0x3C⟩, 2, []) := by decide +kernel
/-- V44 EA defaults. -/
theorem test_nop_imp :
    left (step (before [0xEA] [] ⟨0x8000, 0x00, 0x00, 0x00, 0xFD, 0x34⟩)) [] =
      some (⟨0x8001, 0x00, 0x00, 0x00, 0xFD, 0x34⟩, 2, []) := by decide +kernel
/-- V30 A9 42 PC=$FFFF; $0000=$42. -/
theorem test_lda_imm :
    left (step (before [0xA9, 0x42] [(0x0000, 0x42)] ⟨0xFFFF, 0x00, 0x00, 0x00, 0xFD, 0x34⟩)) [] =
      some (⟨0x0001, 0x42, 0x00, 0x00, 0xFD, 0x34⟩, 2, []) := by decide +kernel
/-- V30 02. -/
theorem test_illegal_opcode_faults :
    faultOf (step (before [0x02] [] ⟨0x8000, 0, 0, 0, 0xFD, 0x34⟩)) = some (.illegalOpcode 0x8000 0x02) := by decide +kernel
/-- V40 AD 18 40 and 8D 00 50. -/
theorem test_unmapped_operand_faults :
    faultOf (step (before [0xAD, 0x18, 0x40] [] ⟨0x8000, 0, 0, 0, 0xFD, 0x34⟩)) = some (.unmappedAddress .cpu 0x4018) ∧
    faultOf (step (before [0x8D, 0x00, 0x50] [] ⟨0x8000, 0x12, 0, 0, 0xFD, 0x34⟩)) = some (.unmappedAddress .cpu 0x5000) := by
  decide +kernel
/-- V30 EA at $4018. -/
theorem test_unmapped_fetch_faults :
    faultOf (step (before [] [] ⟨0x4018, 0, 0, 0, 0xFD, 0x34⟩)) = some (.unmappedAddress .cpu 0x4018) := by decide +kernel
/-- 30_encoding.md R143: the word placed for the host is the next instruction run. -/
theorem test_withFetchWord_runs_the_word :
    left (step (State.reset.withFetchWord 16 0x42A9)) [] = some (⟨2, 0x42, 0, 0, 0xFD, 0x34⟩, 2, []) := by decide +kernel

/-! ## Interrupts: spec/95_test_vectors.md V60 -/

/-- The set-up of V60: vectors, NOPs, PC = $8000; flags as given. -/
def interrupts (p : Nat) : State :=
  before [0xEA, 0xEA, 0xEA] [(0xFFFA, 0x00), (0xFFFB, 0xA0), (0xFFFE, 0x00), (0xFFFF, 0x90), (0x9000, 0xEA), (0xA000, 0xEA)]
    ⟨0x8000, 0, 0, 0, 0xFD, p⟩

/-- An APU source asserts. -/
def asserting (s : State) : State := { s with apu := { s.apu with frameIrq := true } }

/-- An NMI is pending, deferred or not. -/
def nmi (deferred : Bool) (s : State) : State := { s with cpu := { s.cpu with nmiPending := true, nmiDefer := deferred } }

/-- "IRQ masked". -/
theorem test_irq_masked :
    left (step (asserting (interrupts 0x34))) [0x1FD] = some (⟨0x8001, 0, 0, 0, 0xFD, 0x34⟩, 2, [some 0]) := by decide +kernel
/-- "IRQ taken". -/
theorem test_irq_taken :
    left (step (asserting (interrupts 0x31))) [0x1FD, 0x1FC, 0x1FB] =
      some (⟨0x9000, 0, 0, 0, 0xFA, 0x35⟩, 7, [some 0x80, some 0x00, some 0x21]) := by decide +kernel
/-- "NMI, draw = false". -/
theorem test_nmi_taken :
    left (step (nmi false (interrupts 0x34))) [0x1FD, 0x1FC, 0x1FB] =
      some (⟨0xA000, 0, 0, 0, 0xFA, 0x34⟩, 7, [some 0x80, some 0x00, some 0x24]) := by decide +kernel
/-- "NMI, draw = true": the first call. -/
theorem test_nmi_deferred :
    left (step (nmi true (interrupts 0x34))) [] = some (⟨0x8001, 0, 0, 0, 0xFD, 0x34⟩, 2, []) := by decide +kernel
/-- "both ready, irq_first" and "both ready, nmi_first": the first call of each. -/
theorem test_both_ready :
    left (step (nmi false (asserting (interrupts 0x31)))) [0x1FB] = some (⟨0x9000, 0, 0, 0, 0xFA, 0x35⟩, 7, [some 0x21]) ∧
    left (step { nmi false (asserting (interrupts 0x31)) with params := { intCheckOrder := .nmiFirst } }) [0x1FB] =
      some (⟨0xA000, 0, 0, 0, 0xFA, 0x31⟩, 7, [some 0x21]) := by decide +kernel

/-! ## Devices: spec/95_test_vectors.md V20 and V50 to V53 -/

/-- A write that is known not to fault. -/
def wr (a v : Nat) (s : State) : State :=
  match writeByte (BitVec.ofNat 16 a) (BitVec.ofNat 8 v) s with
  | .ok _ t => t
  | .fault _ => s

/-- The values of `n` reads in a row. -/
def rd (a n : Nat) (s : State) : Option (List Nat) :=
  match readMany (BitVec.ofNat 16 a) n s with
  | .ok bs _ => some (bs.map BitVec.toNat)
  | .fault _ => none

/-- The machine after reset with another PPU. -/
def withPpu (f : Ppu → Ppu) : State := { State.reset with ppu := f State.reset.ppu }

theorem test_ram_mirrors : rd 0x1800 1 (wr 0x0000 0x11 State.reset) = some [0x11] ∧ rd 0x07FF 1 (wr 0x1FFF 0x22 State.reset) = some [0x22] := by
  decide +kernel
theorem test_rom_write_is_ignored : wr 0x8000 0x55 State.reset = State.reset := by decide +kernel
theorem test_scroll_writes :
    let s1 := wr 0x2005 0x7D State.reset
    let s2 := wr 0x2005 0x5E s1
    (s1.ppu.t, s1.ppu.x, s1.ppu.w) = (0x000F, 5, true) ∧ (s2.ppu.t, s2.ppu.w) = (0x616F, false) ∧ (wr 0x2000 0x03 s2).ppu.t = 0x6D6F := by
  decide +kernel
theorem test_address_writes :
    let s1 := wr 0x2006 0x21 (withPpu fun p => { p with t := 0x7FFF })
    let s2 := wr 0x2006 0x08 s1
    (s1.ppu.t, s1.ppu.v, s1.ppu.w) = (0x21FF, 0, true) ∧ (s2.ppu.t, s2.ppu.v, s2.ppu.w) = (0x2108, 0x2108, false) := by decide +kernel
theorem test_status_reads :
    rd 0x2002 2 (withPpu fun p => { p with vblank := true, w := true }) = some [0x80, 0x00] ∧
    rd 0x3FFA 2 (withPpu fun p => { p with sprite0Hit := true }) = some [0x40, 0x40] := by decide +kernel
theorem test_vram_reads_are_one_behind :
    rd 0x2007 3 (withPpu fun p => { p with v := 0x2108, nt := [(0x108, 0xAB), (0x109, 0xCD)] }) = some [0x00, 0xAB, 0xCD] := by decide +kernel
theorem test_palette_reads_at_once :
    rd 0x2007 1 (withPpu fun p => { p with v := 0x3F01, palette := [(1, 0x2A)] }) = some [0x2A] := by decide +kernel
theorem test_vram_writes :
    let s := wr 0x2007 0x11 (wr 0x2007 0x11 (withPpu fun p => { p with v := 0x2000, ctrl := 4 }))
    s.ppu.nt = [(0, 0x11), (0x20, 0x11)] ∧ s.ppu.v = 0x2040 := by decide +kernel
theorem test_palette_writes_wrap :
    (wr 0x2007 0x22 (withPpu fun p => { p with v := 0x7FFF })).ppu.palette = [(0x1F, 0x22)] ∧
    (wr 0x2007 0x0F (withPpu fun p => { p with v := 0x3F10 })).ppu.palette = [(0, 0x0F)] ∧
    (wr 0x2007 0x0F (withPpu fun p => { p with v := 0x3F20 })).ppu.palette = [(0, 0x0F)] := by decide +kernel
theorem test_chr_ram_writes :
    (wr 0x2007 0xFF State.reset).chrRam = [] ∧
    (wr 0x2007 0xFF { State.reset with rom := { RomImage.empty with chrPages := 0 } }).chrRam = [(0, 0xFF)] := by decide +kernel
theorem test_oam_writes :
    let s := wr 0x2004 3 (wr 0x2004 2 (wr 0x2004 1 (withPpu fun p => { p with oamaddr := 0xFE })))
    s.ppu.oam = [(0, 3), (0xFE, 1), (0xFF, 2)] ∧ s.ppu.oamaddr = 1 := by decide +kernel
theorem test_coarse_x : ([0x0000, 0x001E, 0x001F, 0x041F, 0x2C1F] : List (BitVec 15)).map coarseXIncrement =
    [0x0001, 0x001F, 0x0400, 0x0000, 0x2800] := by decide +kernel
theorem test_y_increment : ([0x0000, 0x6000, 0x7000, 0x7020, 0x73A0, 0x7BA0, 0x73E0, 0x7BFF] : List (BitVec 15)).map yIncrement =
    [0x1000, 0x7000, 0x0020, 0x0040, 0x0800, 0x0000, 0x0000, 0x081F] := by decide +kernel
theorem test_v_copies : copyHorizontal 0x7FFF 0 = 0x041F ∧ copyVertical 0x7FFF 0 = 0x7BE0 := by decide +kernel
theorem test_fetch_addresses :
    ([0x0000, 0x0042, 0x2108, 0x2FFF] : List (BitVec 15)).map (fun v => (tileAddress v, attributeAddress v, quadrantShift v, fineY v)) =
      [(0x2000, 0x23C0, 0, 0), (0x2042, 0x23C0, 6, 0), (0x2108, 0x23D2, 0, 2), (0x2FFF, 0x2FFF, 6, 2)] := by decide +kernel
/-- "Pixel priority": the rows of the table. -/
theorem test_pixel_priority :
    priority none none = 0 ∧ priority (some 0x0B) none = 0x0B ∧
    (∀ b : Bool, priority none (some ⟨0x16, b⟩) = 0x16) ∧
    priority (some 0x0B) (some ⟨0x16, false⟩) = 0x16 ∧ priority (some 0x0B) (some ⟨0x16, true⟩) = 0x0B := by decide +kernel
/-- A sprite at Y $10, X $20 covers scanlines $11 to $18 and columns $20 to $27; column 0 shows pattern bit 7, or bit 0 when flipped. -/
theorem test_sprite_geometry :
    let s (flip : Byte) : State :=
      { State.reset with
        rom := { RomImage.empty with chr := [(0x30, 0x80)] }
        ppu := { State.reset.ppu with sprSnap := [(0, 0x10), (1, 0x03)] ++ (if flip = 0 then [] else [(2, flip)]) ++ [(3, 0x20)] } }
    ([0x10, 0x11, 0x18, 0x19].map (fun y => (s 0).ppu.spriteCovers 0 y) = [false, true, true, false]) ∧
    ([0x1F, 0x20, 0x21, 0x28].map (fun x => (spritePixel (s 0) 0 x 0x11).isSome) = [false, true, false, false]) ∧
    ([0x20, 0x27].map (fun x => (spritePixel (s 0x40) 0 x 0x11).isSome) = [false, true]) := by decide +kernel
theorem test_mixer :
    [mix 0 0 0 0, mix 15 0 0 0, mix 30 0 0 0, mix 0 15 0 0, mix 0 0 15 0, mix 0 0 0 64, mix 0 0 0 127, mix 16 7 0 0, mix 30 15 15 127] =
      [0, 38, 65, 62, 44, 89, 146, 72, 254] := by decide +kernel
theorem test_pulse_registers :
    let s := wr 0x4003 0x08 (wr 0x4000 0x30 (wr 0x4015 0x01 State.reset))
    s.apu.pulse0 = { Pulse.zero with enabled := true, env := ⟨true, true, 0, true, 0, 0⟩, length := 254 } ∧ rd 0x4015 1 s = some [1] ∧
    rd 0x4015 1 (wr 0x4015 0x00 s) = some [0] ∧ (wr 0x4003 0xF8 State.reset).apu.pulse0.length = 0 := by decide +kernel
theorem test_length_table : ([0, 1, 2, 3, 8, 16, 30, 31] : List (BitVec 5)).map lengthTable = [10, 254, 20, 2, 160, 12, 32, 30] := by decide +kernel
theorem test_envelope :
    let e1 := (⟨false, false, 3, true, 0, 0⟩ : Envelope).clock
    let e4 := e1.clock.clock.clock
    (e1.decay, e1.div, e1.start) = (15, 3, false) ∧ e4.div = 0 ∧ (e4.clock.div, e4.clock.decay) = (3, 14) ∧
    (⟨true, false, 3, false, 0, 0⟩ : Envelope).clock.decay = 15 ∧ (⟨false, false, 3, false, 0, 0⟩ : Envelope).clock.decay = 0 := by
  decide +kernel
theorem test_sweep :
    let p : Pulse := { Pulse.zero with timerPeriod := 0x100, swShift := 1, swNegate := true }
    p.target true = 127 ∧ p.target false = 128 ∧ ({ p with swNegate := false } : Pulse).target true = 384 ∧
    ({ Pulse.zero with timerPeriod := 0x7FF } : Pulse).mute true = true ∧ ({ p with timerPeriod := 7 } : Pulse).mute true = true := by
  decide +kernel
theorem test_wave_tables :
    ([0, 1, 4, 5] : List (BitVec 3)).map (dutyTable 2) = [false, true, true, false] ∧
    ([0, 15, 16, 31] : List (BitVec 5)).map triangleTable = [15, 0, 0, 15] := by decide +kernel
theorem test_linear_counter :
    let t0 := (wr 0x400B 0 (wr 0x4008 0x05 State.reset)).apu.triangle
    (List.range 7).map (fun n => (Triangle.linearClock^[n + 1] t0).lin) = [5, 4, 3, 2, 1, 0, 0] := by decide +kernel
theorem test_noise_register :
    (List.range 10).map (fun n => (lfsrStep false)^[n + 1] 1) =
      [0x4000, 0x2000, 0x1000, 0x0800, 0x0400, 0x0200, 0x0100, 0x0080, 0x0040, 0x0020] ∧
    (lfsrStep true)^[10] 1 = 0x4020 ∧ (lfsrStep true)^[93] 1 = 1 := by decide +kernel
theorem test_dmc :
    let s := wr 0x4015 0x10 (wr 0x4013 0x01 (wr 0x4012 0x40 State.reset))
    (s.apu.dmc.curAddr, s.apu.dmc.bytesRem) = (0xD000, 17) ∧
    ([0, 125, 126, 127] : List (BitVec 7)).map (dmcLevel true) = [2, 127, 126, 127] ∧
    ([127, 2, 1, 0] : List (BitVec 7)).map (dmcLevel false) = [125, 0, 1, 0] ∧ dmcStall {} 1000 = 513 ∧ dmcStall {} 1001 = 514 := by
  decide +kernel
theorem test_frame_counter_writes :
    let s := { State.reset with apu := { State.reset.apu with frameIrq := true, fc := 9 } }
    rd 0x4015 2 s = some [0x40, 0x00] ∧ (wr 0x4017 0x40 s).apu.frameIrq = false ∧ (wr 0x4017 0x40 s).apu.fc = 0 ∧
    (wr 0x4017 0x80 s).apu.fmode = true := by decide +kernel

/-- The machine a cartridge powers up to, or the empty one. -/
def cartridge (id prg chr : Nat) : State :=
  match powerUp (image id prg chr) {} with
  | .next s => s
  | _ => State.reset

/-- The 8KB PRG units at $8000, $A000, $C000, $E000. -/
def prgUnits (s : State) : List Nat := (List.range 4).map (prgUnit s)

theorem test_fixed_mapping : prgUnits (cartridge 0 1 1) = [0, 1, 0, 1] ∧ prgUnits (cartridge 0 2 1) = [0, 1, 2, 3] := by decide +kernel
theorem test_bank16 :
    prgUnits (cartridge 2 8 1) = [0, 1, 14, 15] ∧ prgUnits (wr 0x8000 0x0B (cartridge 2 8 1)) = [6, 7, 14, 15] ∧
    prgUnits (wr 0xFFFF 0x05 (cartridge 2 8 1)) = [10, 11, 14, 15] := by decide +kernel
theorem test_eight_register_prg :
    let s := wr 0x8001 0x02 (wr 0x8000 0x06 (cartridge 4 4 2))
    prgUnits (cartridge 4 4 2) = [0, 1, 6, 7] ∧ prgUnits s = [2, 1, 6, 7] ∧ prgUnits (wr 0x8000 0x46 s) = [6, 1, 2, 7] ∧
    prgUnits (wr 0x8001 0x0D (wr 0x8000 0x07 s)) = [2, 5, 6, 7] := by decide +kernel
theorem test_eight_register_chr :
    let s := wr 0x8001 0x05 (wr 0x8000 0x00 (cartridge 4 4 2))
    (List.range 2).map (chrUnit s) = [4, 5] ∧ (List.range 6).map (chrUnit (wr 0x8000 0x80 s)) = [4, 5, 6, 7, 4, 5] := by decide +kernel
theorem test_eight_register_mirroring :
    (wr 0xA000 1 (cartridge 4 4 2)).ppu.mirroring = .horizontal ∧ (wr 0xA000 0 (cartridge 4 4 2)).ppu.mirroring = .vertical := by
  decide +kernel
theorem test_scanline_counter :
    let r0 : EightReg :=
      match (wr 0xE001 0 (wr 0xC001 0 (wr 0xC000 3 (cartridge 4 4 2)))).mapper with
      | .eightReg r => r
      | _ => ⟨0, Vector.replicate 8 0, false, 0, 0, 0, false, false, false⟩
    (List.range 5).map (fun n => ((EightReg.clock^[n + 1] r0).irqCounter, (EightReg.clock^[n + 1] r0).irqLine)) =
      [(3, false), (2, false), (1, false), (0, true), (3, true)] := by decide +kernel
theorem test_dual_variant :
    let b := wr 0xB001 0x03 (wr 0xB000 0x05 (cartridge 23 8 32))
    chrUnit b 0 = 0x35 ∧ prgUnits (wr 0xA000 0x13 (wr 0x8000 0x25 b)) = [5, 3, 14, 15] ∧
    (wr 0x9000 1 b).ppu.mirroring = .horizontal ∧ chrUnit (wr 0xB001 0x03 (cartridge 22 8 32)) 1 = 0x03 := by decide +kernel
theorem test_unsupported_mapper : powerUp (image 1 1 1) {} = .refused (.unsupportedMapper 1) := rfl
theorem test_controllers :
    let held : State := { State.reset with pads := { State.reset.pads with
      buttons0 := { Buttons.released with a := true, start := true }, buttons1 := { Buttons.released with right := true } } }
    let s := wr 0x4016 0 (wr 0x4016 1 held)
    rd 0x4016 9 s = some [1, 0, 0, 1, 0, 0, 0, 0, 1] ∧ rd 0x4017 9 s = some [0, 0, 0, 0, 0, 0, 0, 1, 1] ∧
    rd 0x4016 3 (wr 0x4016 1 held) = some [1, 1, 1] := by decide +kernel
theorem test_oam_dma :
    let s := wr 0x4014 2 { State.reset with
      ram := Memory.tabulate (fun a => BitVec.ofNat 8 a) 0x200 256, ppu := { State.reset.ppu with oamaddr := 0x10 } }
    [0x10, 0x20, 0x0F].map s.ppu.oam.read = [0x00, 0x10, 0xFF] ∧ s.ppu.oamaddr = 0x10 ∧ s.cpu.cycles = 513 := by decide +kernel
theorem test_oam_dma_faults :
    faultOf (step (before [0x8D, 0x14, 0x40] [] ⟨0x8000, 0x41, 0, 0, 0xFD, 0x34⟩)) = some (.unmappedAddress .cpu 0x4100) ∧
    faultOf (step (before [0x8D, 0x14, 0x40] [] ⟨0x8000, 0x40, 0, 0, 0xFD, 0x34⟩)) = some (.unmappedAddress .cpu 0x4018) := by decide +kernel
/-- Two fan-outs follow a two-cycle instruction, then the CPU has its turn again. -/
theorem test_two_fan_outs :
    (match step (before [0xA9, 0x01] [] ⟨0x8000, 0, 0, 0, 0xFD, 0x34⟩) with
     | .next s => (match step s with
       | .next t => (match step t with
         | .next u => some (s.synced, t.synced, u.synced, u.cpu.cycles, u.ppu.cycle)
         | _ => none)
       | _ => none)
     | _ => none) = some (0, 1, 2, 2, 6) := by decide +kernel


/-! ## Witnesses: for each statement with hypotheses a concrete state and operands that meet all of them, at the ends of their ranges

Three states serve most of them: the machine after reset with a program in RAM at PC, and the same with `UNLISTED_IO = zero`. -/

/-- The machine after reset with bytes at PC = $0000. -/
def running (bytes : List Byte) : State := placeBytes 0 bytes State.reset

/-- The machine after reset, with the unlisted range open. -/
def opened : State := { State.reset with params := { unlistedIo := .zero } }

/-- The machine after reset, unmasked, with an APU interrupt. -/
def interrupted : State :=
  { State.reset with
    cpu := { State.reset.cpu with p := ⟨false, false, true, false, false, false, false⟩ }
    apu := { State.reset.apu with frameIrq := true } }

/-- The machine after reset with a scanline counter that asserts, unmasked. -/
def interruptedByMapper : State :=
  { State.reset with
    cpu := { State.reset.cpu with p := ⟨false, false, true, false, false, false, false⟩ }
    irqSources := [.apu, .mapper]
    mapper := .eightReg ⟨0, Vector.replicate 8 0, false, 0, 0, 0, false, true, true⟩ }

/-- The machine after reset with an NMI pending. -/
def signalled : State := { State.reset with cpu := { State.reset.cpu with nmiPending := true } }

theorem running_quiet (bytes : List Byte) (h : bytes = [0xA9, 0x80] ∨ bytes = [0x02]) :
    Idle (running bytes) ∧ ¬ IrqPending (running bytes) ∧ ¬ NmiPending (running bytes) := by
  rcases h with rfl | rfl <;>
    exact ⟨⟨by decide, by decide, by decide⟩, fun h => absurd h.1 (by decide), fun h => absurd h.1 (by decide)⟩

theorem witness_DecodeOfEncode :
    (Instr.bne 127).wellFormed = true ∧ (Instr.bpl (-128)).wellFormed = true ∧ (Instr.ldaAbs 0xFFFF).wellFormed = true ∧
    Instr.brk.wellFormed = true := by decide
theorem witness_EncodeOfDecode :
    decode [0xD0, 0x80, 0x01] = .ok (.bne (-128), [0x01]) ∧ decode [0x10, 0x7F] = .ok (.bpl 127, []) ∧
    decode [0x00] = .ok (.brk, []) := by decide +kernel
theorem witness_StepRunsDecodedInstruction :
    (Idle (running [0xA9, 0x80]) ∧ ¬ IrqPending (running [0xA9, 0x80]) ∧ ¬ NmiPending (running [0xA9, 0x80]) ∧
      decode [0xA9, 0x80] = .ok (.ldaImm 0x80, []) ∧ BytesAt (running [0xA9, 0x80]) (running [0xA9, 0x80]).cpu.pc [0xA9, 0x80]) ∧
    ∃ t, fetch (afterDeferral (running [0xA9, 0x80])) = .ok (.ldaImm 0x80) t := by
  have q := running_quiet [0xA9, 0x80] (.inl rfl)
  refine ⟨⟨q.1, q.2.1, q.2.2, by decide +kernel, ?_⟩, _, rfl⟩
  intro k hk
  match k, hk with
  | 0, _ => decide +kernel
  | 1, _ => decide +kernel
/-- The last address and the wrap to $0000: an instruction at $FFFF whose operand stands at $0000. -/
theorem witness_StepRunsDecodedInstruction_at_the_top :
    let s := before [0xA9, 0x42] [] ⟨0xFFFF, 0, 0, 0, 0xFD, 0x34⟩
    Idle s ∧ ¬ IrqPending s ∧ ¬ NmiPending s ∧ BytesAt s s.cpu.pc [0xA9, 0x42] := by
  refine ⟨⟨by decide +kernel, by decide +kernel, by decide +kernel⟩, fun h => absurd h.1 (by decide +kernel),
    fun h => absurd h.1 (by decide +kernel), ?_⟩
  intro k hk
  match k, hk with
  | 0, _ => decide +kernel
  | 1, _ => decide +kernel
theorem witness_IllegalOpcodeFaults :
    Idle (running [0x02]) ∧ ¬ IrqPending (running [0x02]) ∧ ¬ NmiPending (running [0x02]) ∧
    peek (running [0x02]) (running [0x02]).cpu.pc = some 0x02 ∧ (0x02 : Byte) ∈ illegalOpcodes := by
  have q := running_quiet [0x02] (.inr rfl)
  exact ⟨q.1, q.2.1, q.2.2, by decide +kernel, by decide +kernel⟩
theorem witness_RamAndCartridgeRam :
    (0x0000 : Word).toNat < 0x2000 ∧ (0x1FFF : Word).toNat < 0x2000 ∧ 0x6000 ≤ (0x6000 : Word).toNat ∧
    (0x7FFF : Word).toNat ≤ 0x7FFF := by decide
theorem witness_DeviceAndUnlistedRanges :
    (0x2000 ≤ (0x2000 : Word).toNat ∧ (0x3FFF : Word).toNat ≤ 0x3FFF) ∧
    (0x4000 ≤ (0x4000 : Word).toNat ∧ (0x4014 : Word).toNat ≤ 0x4014) ∧
    (0x4013 : Word).toNat ≤ 0x4013 ∧
    (0x4018 ≤ (0x4018 : Word).toNat ∧ (0x5FFF : Word).toNat ≤ 0x5FFF) ∧
    State.reset.params.unlistedIo = .fault ∧ opened.params.unlistedIo = .zero := by decide
theorem witness_ReadsKeepMemory :
    (∃ t, readByte 0x1FFF State.reset = .ok 0 t) ∧ (∃ t, readByte 0x2002 State.reset = .ok 0 t) ∧
    (∃ t, readByte 0x4018 opened = .ok 0 t) ∧ (∃ t, readByte 0xFFFF State.reset = .ok 0 t) :=
  ⟨⟨_, rfl⟩, ⟨_, rfl⟩, ⟨_, rfl⟩, ⟨_, rfl⟩⟩
theorem unmapped_ends : ¬ Mapped State.reset 0x4018 ∧ ¬ Mapped State.reset 0x5FFF := by
  constructor <;> · rintro (h | h | h) <;> exact absurd h (by decide)
theorem witness_UnmappedOperandFaults :
    (readForm (.ldaAbs 0x4018) = some (.opLda, .mem (.abs 0x4018), 3, 4) ∧
      ¬ Mapped (State.reset.advance 3) (effective (State.reset.advance 3) (.abs 0x4018)).1) ∧
    (storeForm (.staAbs 0x5FFF) = some (.a, .abs 0x5FFF, 3, 4) ∧
      ¬ Mapped (State.reset.advance 3) (effective (State.reset.advance 3) (.abs 0x5FFF)).1) ∧
    (rmwForm (.incAbs 0x4018) = some (.opInc, .abs 0x4018, 3, 6) ∧
      ¬ Mapped (State.reset.advance 3) (effective (State.reset.advance 3) (.abs 0x4018)).1) :=
  ⟨⟨rfl, unmapped_ends.1⟩, ⟨rfl, unmapped_ends.2⟩, ⟨rfl, unmapped_ends.1⟩⟩
/-- An indirect jump through $5FFF, and through $4017, whose second byte is the first unmapped one. -/
theorem witness_UnmappedOperandFaults_of_a_pointer :
    ¬ Mapped State.reset 0x5FFF ∧ Mapped State.reset 0x4017 ∧
    ¬ Mapped State.reset (if State.reset.params.jmpIndPageWrap then (0x4017 &&& 0xFF00) ||| ((0x4017 + 1) &&& 0x00FF) else 0x4017 + 1) :=
  ⟨unmapped_ends.2, .inr (.inl (by decide)), unmapped_ends.1⟩

/-- Every reading form is readable at every operand once the unlisted range is open, and an absolute one at the ends of the mapped
ranges. -/
theorem readable_opened (src : Source) (n : Nat) : Readable (opened.advance n) src := by
  cases src with
  | imm v => trivial
  | mem m => exact .inl rfl
theorem witness_LoadsTakeTheOperand :
    (readForm (.ldaImm 0) = some (.opLda, .imm 0, 2, 2) ∧ readForm (.ldxZpy 0xFF) = some (.opLdx, .mem (.zpy 0xFF), 2, 4) ∧
      readForm (.ldyAbsx 0xFFFF) = some (.opLdy, .mem (.absx 0xFFFF), 3, 4)) ∧
    Readable (State.reset.advance 2) (.imm 0) ∧ Readable (opened.advance 2) (.mem (.zpy 0xFF)) ∧
    Readable (State.reset.advance 3) (.mem (.abs 0x4017)) ∧ Readable (State.reset.advance 3) (.mem (.abs 0x6000)) ∧
    Readable (opened.advance 3) (.mem (.absx 0xFFFF)) :=
  ⟨⟨rfl, rfl, rfl⟩, trivial, readable_opened _ _, .inr (.inl (by decide)), .inr (.inr (by decide)), readable_opened _ _⟩
theorem witness_AdcIsTwosComplementAddition :
    readForm (.adcIndy 0xFF) = some (.opAdc, .mem (.indy 0xFF), 2, 5) ∧ Readable (opened.advance 2) (.mem (.indy 0xFF)) :=
  ⟨rfl, readable_opened _ _⟩
theorem witness_SbcIsTwosComplementSubtraction :
    readForm (.sbcIndx 0xFF) = some (.opSbc, .mem (.indx 0xFF), 2, 6) ∧ Readable (opened.advance 2) (.mem (.indx 0xFF)) :=
  ⟨rfl, readable_opened _ _⟩
theorem witness_LogicCombinesWithA :
    (readForm (.andImm 0xFF) = some (.opAnd, .imm 0xFF, 2, 2) ∧ readForm (.oraZp 0) = some (.opOra, .mem (.zp 0), 2, 3) ∧
      readForm (.eorAbsy 0xFFFF) = some (.opEor, .mem (.absy 0xFFFF), 3, 4)) ∧
    Readable (opened.advance 2) (.imm 0xFF) ∧ Readable (opened.advance 2) (.mem (.zp 0)) ∧
    Readable (opened.advance 3) (.mem (.absy 0xFFFF)) :=
  ⟨⟨rfl, rfl, rfl⟩, readable_opened _ _, readable_opened _ _, readable_opened _ _⟩
theorem witness_ComparesWriteFlagsOnly :
    (readForm (.cmpZpx 0xFF) = some (.opCmp, .mem (.zpx 0xFF), 2, 4) ∧ readForm (.cpxImm 0) = some (.opCpx, .imm 0, 2, 2) ∧
      readForm (.cpyAbs 0) = some (.opCpy, .mem (.abs 0), 3, 4)) ∧
    Readable (opened.advance 2) (.mem (.zpx 0xFF)) ∧ Readable (opened.advance 2) (.imm 0) ∧ Readable (opened.advance 3) (.mem (.abs 0)) :=
  ⟨⟨rfl, rfl, rfl⟩, readable_opened _ _, readable_opened _ _, readable_opened _ _⟩
theorem witness_BitTestsTheOperand :
    readForm (.bitAbs 0x2002) = some (.opBit, .mem (.abs 0x2002), 3, 4) ∧ Readable (State.reset.advance 3) (.mem (.abs 0x2002)) :=
  ⟨rfl, .inr (.inl (by decide))⟩
theorem witness_StoresWriteOnce :
    (storeForm (.staAbs 0xFFFF) = some (.a, .abs 0xFFFF, 3, 4) ∧
      Storable (State.reset.advance 3) (effective (State.reset.advance 3) (.abs 0xFFFF)).1 (State.reset.getReg .a)) ∧
    (storeForm (.stxAbs 0x4014) = some (.x, .abs 0x4014, 3, 4) ∧
      Storable (opened.advance 3) (effective (opened.advance 3) (.abs 0x4014)).1 (opened.getReg .x)) ∧
    (storeForm (.styZpx 0xFF) = some (.y, .zpx 0xFF, 2, 4) ∧
      Storable (State.reset.advance 2) (effective (State.reset.advance 2) (.zpx 0xFF)).1 (State.reset.getReg .y)) :=
  ⟨⟨rfl, .inr (.inr (by decide)), fun h => absurd h (by decide)⟩, ⟨rfl, .inl rfl, fun _ _ => .inl rfl⟩,
   ⟨rfl, .inr (.inl (by decide)), fun h => absurd h (by decide)⟩⟩
theorem running_memories : MemoriesOk (running [0x00, 0xA9, 0x80]) :=
  ⟨by decide +kernel, rfl, rfl, rfl, rfl, rfl, rfl, rfl, rfl, rfl⟩
theorem witness_StoresChangeOneByte :
    MemoriesOk (running [0x00, 0xA9, 0x80]) ∧
    (storeForm (.staAbs 0x1FFF) = some (.a, .abs 0x1FFF, 3, 4) ∧
      IsRam (effective ((running [0x00, 0xA9, 0x80]).advance 3) (.abs 0x1FFF)).1) ∧
    (storeForm (.stxAbs 0x7FFF) = some (.x, .abs 0x7FFF, 3, 4) ∧
      IsRam (effective ((running [0x00, 0xA9, 0x80]).advance 3) (.abs 0x7FFF)).1) :=
  ⟨running_memories, ⟨rfl, .inl (by decide)⟩, ⟨rfl, .inr (by decide)⟩⟩
theorem witness_ReadModifyWriteReadsThenWrites :
    (rmwForm (.aslAbsx 0xFFFF) = some (.opAsl, .absx 0xFFFF, 3, 7) ∧
      Mapped (State.reset.advance 3) (effective (State.reset.advance 3) (.absx 0xFFFF)).1) ∧
    (rmwForm (.decAbs 0x4017) = some (.opDec, .abs 0x4017, 3, 6) ∧
      Mapped (State.reset.advance 3) (effective (State.reset.advance 3) (.abs 0x4017)).1) :=
  ⟨⟨rfl, .inr (.inr (by decide))⟩, ⟨rfl, .inr (.inl (by decide))⟩⟩
theorem witness_ReadModifyWriteChangesOneByte :
    MemoriesOk (running [0x00, 0xA9, 0x80]) ∧
    (rmwForm (.rorAbs 0x1FFF) = some (.opRor, .abs 0x1FFF, 3, 6) ∧
      IsRam (effective ((running [0x00, 0xA9, 0x80]).advance 3) (.abs 0x1FFF)).1) ∧
    (rmwForm (.incAbs 0x6000) = some (.opInc, .abs 0x6000, 3, 6) ∧
      IsRam (effective ((running [0x00, 0xA9, 0x80]).advance 3) (.abs 0x6000)).1) :=
  ⟨running_memories, ⟨rfl, .inl (by decide)⟩, ⟨rfl, .inr (by decide)⟩⟩
/-- Both bytes of the pointer mapped, with the pointer at the end of a page and at the end of the space, under both values of the page-wrap parameter. -/
theorem witness_JumpsCallsAndReturns :
    (Mapped State.reset 0x02FF ∧ Mapped State.reset ((0x02FF &&& 0xFF00) ||| ((0x02FF + 1) &&& 0x00FF))) ∧
    (Mapped State.reset 0xFFFF ∧ Mapped State.reset ((0xFFFF &&& 0xFF00) ||| ((0xFFFF + 1) &&& 0x00FF))) ∧
    (let s := { State.reset with params := { jmpIndPageWrap := false } }
     Mapped s 0xFFFF ∧ Mapped s (0xFFFF + 1)) :=
  ⟨⟨.inr (.inl (by decide)), .inr (.inl (by decide))⟩, ⟨.inr (.inr (by decide)), .inr (.inr (by decide))⟩,
   ⟨.inr (.inr (by decide)), .inr (.inl (by decide))⟩⟩
theorem witness_BranchesOnOneFlag :
    (∃ cond, branchForm (.bcc 127) = some (cond, 127)) ∧ (∃ cond, branchForm (.bvs (-128)) = some (cond, -128)) :=
  ⟨⟨_, rfl⟩, ⟨_, rfl⟩⟩
theorem witness_BrkThenRti :
    MemoriesOk (running [0x00, 0xA9, 0x80]) ∧ ∃ t u, exec .brk (running [0x00, 0xA9, 0x80]) = .next t ∧ exec .rti t = .next u :=
  ⟨running_memories, _, _, rfl, rfl⟩
theorem witness_OnlyTheTablesRegistersChange : ∃ t, exec .tax State.reset = .next t := ⟨_, rfl⟩
theorem witness_OnlyStoresChangeMemory : (∃ t, exec (.cmpAbs 0xFFFF) State.reset = .next t) ∧ storesMemory (.cmpAbs 0xFFFF) = false :=
  ⟨⟨_, rfl⟩, by decide +kernel⟩
/-- Three instructions that complete: one that starts no OAM DMA, and a store and a read-modify-write instruction that start one. -/
theorem witness_CyclesPerInstruction :
    ((∃ t, exec .nop State.reset = .next t) ∧ startsOamDma .nop State.reset = false) ∧
    ((∃ t, exec (.staAbs 0x4014) State.reset = .next t) ∧ storeForm (.staAbs 0x4014) = some (.a, .abs 0x4014, 3, 4) ∧
      startsOamDma (.staAbs 0x4014) State.reset = true) ∧
    ((∃ t, exec (.incAbsx 0x4014) State.reset = .next t) ∧ rmwForm (.incAbsx 0x4014) = some (.opInc, .absx 0x4014, 3, 7) ∧
      startsOamDma (.incAbsx 0x4014) State.reset = true) :=
  ⟨⟨⟨_, rfl⟩, rfl⟩, ⟨⟨_, rfl⟩, rfl, rfl⟩, ⟨⟨_, rfl⟩, rfl, rfl⟩⟩
theorem witness_IrqEntry :
    (Idle interrupted ∧ IrqPending interrupted ∧ interrupted.params.intCheckOrder = .irqFirst) ∧
    (Idle interruptedByMapper ∧ IrqPending interruptedByMapper ∧ ¬ NmiPending interruptedByMapper) :=
  ⟨⟨⟨rfl, rfl, rfl⟩, ⟨rfl, .inl ⟨by decide, .inl rfl⟩⟩, rfl⟩,
   ⟨⟨rfl, rfl, rfl⟩, ⟨rfl, .inr ⟨by decide, _, rfl, rfl⟩⟩, fun h => absurd h.1 (by decide)⟩⟩
theorem witness_NmiEntry :
    (Idle signalled ∧ NmiPending signalled ∧ ¬ IrqPending signalled) ∧
    (let s := { signalled with params := { intCheckOrder := .nmiFirst } }
     Idle s ∧ NmiPending s ∧ s.params.intCheckOrder = .nmiFirst) :=
  ⟨⟨⟨rfl, rfl, rfl⟩, ⟨rfl, rfl⟩, fun h => absurd h.1 (by decide)⟩, ⟨⟨rfl, rfl, rfl⟩, ⟨rfl, rfl⟩, rfl⟩⟩
theorem witness_NmiEdgeSetsTheLatch :
    State.reset.params.nmiDelayPolicy = .draw ∧
    ({ State.reset with params := { nmiDelayPolicy := .immediate } } : State).params.nmiDelayPolicy = .immediate ∧
    ({ State.reset with params := { nmiDelayPolicy := .deferred } } : State).params.nmiDelayPolicy = .deferred ∧
    ({ State.reset with params := { nmiDelayPolicy := .alternate } } : State).params.nmiDelayPolicy = .alternate := by decide
theorem witness_FaultsHaveTwoCauses :
    ({ State.reset with fault := some (.illegalOpcode 0 0x02) } : State).fault = some (.illegalOpcode 0 0x02) ∧
    ((running [0x02]).fault = none ∧ step (running [0x02]) = .fault (.illegalOpcode 0 0x02)) ∧
    ((running [0xAD, 0xFF, 0x5F]).fault = none ∧ step (running [0xAD, 0xFF, 0x5F]) = .fault (.unmappedAddress .cpu 0x5FFF)) :=
  ⟨rfl, ⟨rfl, rfl⟩, ⟨rfl, rfl⟩⟩
theorem running_apu : ApuOk (running [0x00, 0xA9, 0x80]).params.frameStepCycles (running [0x00, 0xA9, 0x80]).apu := by
  unfold ApuOk
  decide +kernel
theorem running_devices : DevicesOk (running [0x00, 0xA9, 0x80]) :=
  ⟨⟨by decide, by decide, rfl, fun _ => (by decide : Memory.fill.toNat < 64)⟩, running_apu, ⟨by decide, by decide⟩, by decide⟩
theorem running_steps : ∃ t, step (running [0x00, 0xA9, 0x80]) = .next t := ⟨_, rfl⟩
theorem witness_MemoriesStayCanonical :
    MemoriesOk (running [0x00, 0xA9, 0x80]) ∧ ∃ t, step (running [0x00, 0xA9, 0x80]) = .next t := ⟨running_memories, running_steps⟩
theorem witness_DevicesStayInRange :
    MemoriesOk (running [0x00, 0xA9, 0x80]) ∧ DevicesOk (running [0x00, 0xA9, 0x80]) ∧ ∃ t, step (running [0x00, 0xA9, 0x80]) = .next t :=
  ⟨running_memories, running_devices, running_steps⟩
theorem witness_SessionIsFixed : ∃ t, step (running [0x00, 0xA9, 0x80]) = .next t := running_steps
/-- A run of a real cartridge, two steps long, with the host's reset waiting. -/
theorem witness_ReachableStatesAreOk : ({} : Params).wellFormed = true ∧ ∃ s, Reachable (image 4 4 2) {} s ∧ s.hostQueue = [.pause] := by
  refine ⟨by decide, _, .next _ _ (.start _ [.reset, .pause] rfl) rfl, rfl⟩
theorem witness_FanOutAlwaysCompletes :
    let s := { running [0x00, 0xA9, 0x80] with synced := 1 }
    s.fault = none ∧ s.synced ≠ s.cpu.cycles ∧ ApuOk s.params.frameStepCycles s.apu :=
  ⟨rfl, by decide, running_devices.2.1⟩
theorem witness_PowerUpStartsAtTheResetVector :
    (image 0 0 1).wellFormed = false ∧
    ((image 1 1 1).wellFormed = true ∧ ∀ sch, ((image 1 1 1).mapperId, sch) ∉ ({} : Params).mapperIds) ∧
    ((image 23 8 32).wellFormed = true ∧ ((image 23 8 32).mapperId, Scheme.dualB) ∈ ({} : Params).mapperIds) ∧
    (∃ s r, powerUp (image 4 4 2) {} = .next s ∧ s.mapper = .eightReg r ∧ (image 4 4 2).mirroring = .vertical) ∧
    (∃ s, powerUp (image 2 8 1) {} = .next s ∧ s.mapper = .bank16 0) ∧
    (∃ s d, powerUp { image 22 8 32 with mirroring := .horizontal } {} = .next s ∧ s.mapper = .dual d) ∧
    (∃ s, powerUp { image 0 1 1 with trainer := some (List.replicate 512 0x55) } {} = .next s) := by
  refine ⟨by decide, ⟨by decide, fun sch => by cases sch <;> decide⟩, ⟨by decide, by decide⟩, ⟨_, _, rfl, rfl, rfl⟩, ⟨_, rfl, rfl⟩,
    ⟨_, _, rfl, rfl⟩, ?_⟩
  rw [powerUp, if_pos (by decide +kernel)]
  exact ⟨_, rfl⟩
theorem witness_ConsoleReset :
    let s := { State.reset with hostQueue := [.reset, .proceed] }
    s.fault = none ∧ s.synced = s.cpu.cycles ∧ s.hostQueue = .reset :: [.proceed] := ⟨rfl, rfl, rfl⟩
theorem witness_StatusReadClearsVblankAndToggle :
    (0x2000 ≤ (0x2002 : Word).toNat ∧ (0x2002 : Word).toNat ≤ 0x3FFF ∧ (0x2002 : Word).toNat % 8 = 2) ∧
    (0x2000 ≤ (0x3FFA : Word).toNat ∧ (0x3FFA : Word).toNat ≤ 0x3FFF ∧ (0x3FFA : Word).toNat % 8 = 2) := by decide
theorem witness_ScrollAndAddressWrites :
    State.reset.ppu.w = false ∧ (withPpu fun p => { p with w := true }).ppu.w = true := by decide
theorem witness_VramDataPort :
    (withPpu fun p => { p with v := 0x3EFF }).ppu.v.toNat % 0x4000 < 0x3F00 ∧
    0x3F00 ≤ (withPpu fun p => { p with v := 0x3F00 }).ppu.v.toNat % 0x4000 ∧
    0x3F00 ≤ (withPpu fun p => { p with v := 0x7FFF }).ppu.v.toNat % 0x4000 := by decide
theorem witness_NametableAndPaletteAliases :
    MemoriesOk (running [0x00, 0xA9, 0x80]) ∧ (0 < 4 ∧ 3 < 4 ∧ 0 < 0x400 ∧ 0x3FF < 0x400) ∧
    (0x3000 ≤ 0x3000 ∧ 0x3EFF < 0x3F00) ∧ (0 < 0x100 ∧ 0xFF < 0x100) := ⟨running_memories, by decide⟩
theorem witness_VblankAndNmi :
    (let s := withPpu fun p => { p with scanline := 241, cycle := 1, ctrl := 0x80 }
     s.ppu.scanline = 241 ∧ s.ppu.cycle = 1 ∧ s.ppu.ctrl.getLsbD 7 = true) ∧
    (let s := withPpu fun p => { p with scanline := 241, cycle := 1 }
     s.ppu.scanline = 241 ∧ s.ppu.cycle = 1 ∧ s.ppu.ctrl.getLsbD 7 = false) ∧
    (let s := withPpu fun p => { p with scanline := 261, cycle := 1 }
     s.ppu.scanline = 261 ∧ s.ppu.cycle = 1) ∧
    (let s := withPpu fun p => { p with scanline := 241, cycle := 2 }
     ¬ ((s.ppu.scanline = 241 ∨ s.ppu.scanline = 261) ∧ s.ppu.cycle = 1)) ∧
    (let s := withPpu fun p => { p with scanline := 261, cycle := 2, sprite0Hit := true }
     ¬ (s.ppu.scanline = 261 ∧ s.ppu.cycle = 1) ∧ s.ppu.sprite0Hit = true) := by decide
/-- The last visible line with the background on, and the pre-render line with the sprites on. -/
theorem witness_ScrollIncrements :
    (let s := withPpu fun p => { p with scanline := 239, cycle := 256, mask := 0x08 }
     s.ppu.cycle = 256 ∧ s.ppu.scanline ≤ 239 ∧ s.ppu.mask.getLsbD 3 = true) ∧
    (let s := withPpu fun p => { p with scanline := 261, cycle := 256, mask := 0x10 }
     s.ppu.cycle = 256 ∧ s.ppu.scanline = 261 ∧ s.ppu.mask.getLsbD 4 = true) := by decide
theorem witness_FrameHas89342Cycles :
    let s := withPpu fun p => { p with scanline := 261, cycle := 340 }
    s.ppu.scanline ≤ 261 ∧ s.ppu.cycle ≤ 340 := by decide
theorem witness_RenderingOffShowsTheBackground :
    (let s := withPpu fun p => { p with scanline := 0, cycle := 1 }
     s.ppu.mask.getLsbD 3 = false ∧ s.ppu.mask.getLsbD 4 = false ∧ s.ppu.scanline ≤ 239 ∧ 1 ≤ s.ppu.cycle ∧ s.ppu.cycle ≤ 256) ∧
    (let s := withPpu fun p => { p with scanline := 239, cycle := 256, mask := 0xE7 }
     s.ppu.mask.getLsbD 3 = false ∧ s.ppu.mask.getLsbD 4 = false ∧ s.ppu.scanline ≤ 239 ∧ 1 ≤ s.ppu.cycle ∧ s.ppu.cycle ≤ 256) := by decide
theorem witness_FrameIrqAtTheFourthStep :
    let f : FrameSteps := ({} : Params).frameStepCycles
    let ok (u : Apu) : Prop := u.fc ≤ (if u.fmode then f.s5 else f.s4)
    ok { Apu.powerUp with fc := 29828 } ∧ ok { Apu.powerUp with fc := 29829 } ∧ ok { Apu.powerUp with fc := 37281, fmode := true } ∧
    ok Apu.powerUp := by
  refine ⟨?_, ?_, ?_, ?_⟩ <;> decide
/-- Each of the four schemes, at the ends of the windows. -/
theorem witness_PrgWindows :
    (0x8000 ≤ (0x8000 : Word).toNat ∧ 0x8000 ≤ (0xBFFF : Word).toNat ∧ 0x8000 ≤ (0xC000 : Word).toNat ∧ 0x8000 ≤ (0xFFFF : Word).toNat) ∧
    (1 ≤ (cartridge 0 1 1).rom.prgPages ∧ (cartridge 0 1 1).mapper = .fixed) ∧
    (1 ≤ (cartridge 2 8 1).rom.prgPages ∧ (cartridge 2 8 1).mapper = .bank16 0) ∧
    (1 ≤ (cartridge 4 4 2).rom.prgPages ∧ ∃ r, (cartridge 4 4 2).mapper = .eightReg r) ∧
    (1 ≤ (cartridge 23 8 32).rom.prgPages ∧ ∃ d, (cartridge 23 8 32).mapper = .dual d) :=
  ⟨by decide, ⟨by decide, rfl⟩, ⟨by decide, rfl⟩, ⟨by decide, _, rfl⟩, ⟨by decide, _, rfl⟩⟩
theorem witness_ApuStatusPort : 0 < 4 ∧ 3 < 4 := by decide
theorem witness_ScanlineCounter :
    let r (line : Bool) : EightReg := ⟨0, Vector.replicate 8 0, false, 0, 0, 0, false, true, line⟩
    ((r false).irqEnabled = true ∧ (r false).irqLine = false ∧ 255 ≤ (255 : Byte).toNat ∧ 0 ≤ (0 : Byte).toNat) ∧ (r true).irqLine = true := by
  decide
/-- The register clauses: both ends of the range, and an image of each scheme. -/
theorem witness_ScanlineCounter_registers :
    (0x8000 ≤ (0x8000 : Word).toNat ∧ 0x8000 ≤ (0xFFFF : Word).toNat) ∧ (cartridge 0 1 1).mapper = .fixed ∧
    (∃ b, (cartridge 2 8 1).mapper = .bank16 b) ∧ (∃ r, (cartridge 4 8 1).mapper = .eightReg r) ∧
    ∃ d, (cartridge 22 8 1).mapper = .dual d ∧ d.variantA = true :=
  ⟨by decide, rfl, ⟨_, rfl⟩, ⟨_, rfl⟩, ⟨_, rfl, rfl⟩⟩
theorem witness_OamDmaCopiesAPage :
    (MemoriesOk (running [0x00, 0xA9, 0x80]) ∧ (0x1F : Byte).toNat < 0x20 ∧ 0x60 ≤ (0x60 : Byte).toNat) ∧
    (0x40 ≤ (0x40 : Byte).toNat ∧ (0x5F : Byte).toNat < 0x60 ∧ State.reset.params.unlistedIo = .fault) ∧
    (∀ k : Byte, Mapped State.reset (wordOf k 0x20)) ∧ (∀ k : Byte, Mapped opened (wordOf k 0x40)) := by
  refine ⟨⟨running_memories, by decide⟩, by decide, fun k => .inr (.inl ?_), fun k => .inl rfl⟩
  revert k
  decide +kernel
theorem witness_ControllersShiftOut :
    (State.reset.pads.strobe = false ∧ State.reset.pads.index0 = 0 ∧ State.reset.pads.index1 = 0) ∧
    ({ State.reset with pads := { State.reset.pads with strobe := true } } : State).pads.strobe = true := by decide


end Sys2Proof.Tests
end

section
/-! What one step keeps: the inversion of `step`, the invariants of a run read off it, and the states a power-up can reach
(10_state.md R32 to R47; 53_scheduler_io.md R630, R632; 70_reset_and_hazards.md R750). -/

namespace Sys2Proof.Machine

/-! ## The inversion of a step -/

theorem kept_execute {s t : State} (h : execute s = .next t) : Kept s t := by
  have hd : Kept s (endDeferral s) := kept_endDeferral s
  unfold execute at h
  dsimp only at h
  split at h
  · split at h
    · obtain rfl := Host.Outcome.next.inj h; exact hd.trans (kept_serviceIrq _)
    · split at h
      · obtain rfl := Host.Outcome.next.inj h; exact hd.trans (kept_serviceNmi _)
      · exact hd.trans (kept_runInstruction h)
  · split at h
    · obtain rfl := Host.Outcome.next.inj h; exact hd.trans (kept_serviceNmi _)
    · split at h
      · obtain rfl := Host.Outcome.next.inj h; exact hd.trans (kept_serviceIrq _)
      · exact hd.trans (kept_runInstruction h)

theorem kept_boundary {s t : State} (h : boundary s = .next t) : Kept s t := by
  unfold boundary at h
  split at h
  · exact kept_execute h
  · exact (kept_hostQueue s _).trans (kept_execute h)
  · obtain rfl := Host.Outcome.next.inj h; exact (kept_hostQueue s _).trans (kept_setButtons _ _ _)
  · obtain rfl := Host.Outcome.next.inj h; exact (kept_hostQueue s _).trans (kept_systemReset _)
  · obtain rfl := Host.Outcome.next.inj h; exact kept_hostQueue s _

/-- A fan-out keeps what `Kept` names up to its last act, which moves `synced`. -/
theorem fanOut_cases {s t : State} (h : fanOut s = .next t) : ∃ u, Kept s u ∧ t = { u with synced := u.synced + 1 } := by
  unfold fanOut at h
  split at h
  · simp at h
  · rename_i u hu
    obtain rfl := Host.Outcome.next.inj h
    exact ⟨_, ((((kept_mapperCycle s).trans (kept_apuCycle hu)).trans (kept_ppuTick _)).trans (kept_ppuTick _)).trans
      (kept_ppuTick _), rfl⟩

/-- All a step can do: with the devices in step, the host's or the CPU's turn; otherwise one fan-out (53_scheduler_io.md R632). -/
theorem step_cases {s t : State} (h : step s = .next t) :
    s.fault = none ∧
    ((s.synced = s.cpu.cycles ∧ Kept s t) ∨
     (s.synced ≠ s.cpu.cycles ∧ ∃ u, Kept s u ∧ t = { u with synced := u.synced + 1 })) := by
  unfold step at h
  split at h
  · simp at h
  · rename_i hf
    refine ⟨hf, ?_⟩
    split at h
    · rename_i hs; exact .inl ⟨hs, kept_boundary h⟩
    · rename_i hs; exact .inr ⟨hs, fanOut_cases h⟩

/-! ## The invariants -/

/-- Settles O38: the memories are kept by every operation, and `synced` is no part of them. -/
theorem memoriesStayCanonical : Obligations.MemoriesStayCanonical := by
  intro s t hm h
  obtain ⟨-, ⟨-, k⟩ | ⟨-, u, k, rfl⟩⟩ := step_cases h
  · exact k.memories hm
  · exact k.memories hm

/-- The ranges of the devices but `synced`'s, which every operation keeps. -/
theorem Kept.devices {s t : State} (k : Kept s t) (hm : MemoriesOk s) (hp : PpuOk s.ppu)
    (ha : ApuOk s.params.frameStepCycles s.apu) (hc : PadsOk s.pads) :
    PpuOk t.ppu ∧ ApuOk t.params.frameStepCycles t.apu ∧ PadsOk t.pads :=
  ⟨k.ppu hm hp, by rw [k.params]; exact k.apu ha, k.pads hc⟩

/-- Settles O39: a fan-out moves `synced` by one only where it is below `cycles`. -/
theorem devicesStayInRange : Obligations.DevicesStayInRange := by
  intro s t hm ⟨hp, ha, hc, hs⟩ h
  obtain ⟨-, ⟨-, k⟩ | ⟨hne, u, k, rfl⟩⟩ := step_cases h
  · obtain ⟨hp', ha', hc'⟩ := k.devices hm hp ha hc
    exact ⟨hp', ha', hc', k.synced ▸ Nat.le_trans hs k.cycles⟩
  · obtain ⟨hp', ha', hc'⟩ := k.devices hm hp ha hc
    have hu : u.synced + 1 ≤ u.cpu.cycles := by have := k.synced; have := k.cycles; omega
    exact ⟨hp', ha', hc', hu⟩

theorem Kept.session {s t : State} (k : Kept s t) : SameSession s t := ⟨k.rom, k.params, k.irqSources, k.scheme⟩

/-- Settles O40: both turns of a step are `Kept`, and a step is made only where no fault is latched. -/
theorem sessionIsFixed : Obligations.SessionIsFixed := by
  intro s t h
  obtain ⟨hf, ⟨-, k⟩ | ⟨-, u, k, rfl⟩⟩ := step_cases h
  · exact ⟨k.session, k.cycles, k.fault.trans hf⟩
  · exact ⟨k.session, k.cycles, k.fault.trans hf⟩

/-! ## Power-up -/

/-- A power-up that is not refused: the image is well formed, its mapper id is listed, and the CPU's reset is the last act. -/
theorem powerUp_next_iff {rom : RomImage} {p : Params} {s : State} :
    powerUp rom p = .next s ↔
      rom.wellFormed = true ∧ ∃ sch, schemeOf p.mapperIds rom.mapperId = some sch ∧ s = cpuReset (beforeReset rom p sch) := by
  unfold powerUp
  cases rom.wellFormed
  · simp
  · cases schemeOf p.mapperIds rom.mapperId <;> simp [eq_comm]

theorem schemeOf_mem {ids : List (Nat × Scheme)} {id : Nat} {sch : Scheme} (h : schemeOf ids id = some sch) : (id, sch) ∈ ids := by
  obtain ⟨⟨id', sch'⟩, hfind, rfl⟩ := Option.map_eq_some_iff.1 h
  obtain rfl : id' = id := by simpa using List.find?_some hfind
  exact List.mem_of_find?_eq_some hfind

theorem schemeOf_eq_none_iff {ids : List (Nat × Scheme)} {id : Nat} : schemeOf ids id = none ↔ ∀ sch, (id, sch) ∉ ids := by
  constructor
  · intro h sch hmem
    have hne := List.find?_eq_none.1 (Option.map_eq_none_iff.1 h) _ hmem
    simp at hne
  · intro h
    cases hs : schemeOf ids id with
    | none => rfl
    | some sch => exact absurd (schemeOf_mem hs) (h sch)

theorem trainer_length {rom : RomImage} {bs : List Byte} (h : rom.wellFormed = true) (ht : rom.trainer = some bs) :
    bs.length = 512 := by
  simp only [RomImage.wellFormed, ht, Bool.and_eq_true, decide_eq_true_eq] at h
  exact h.1.1.2

/-- The trainer's 512 bytes end inside cartridge RAM (10_state.md R33). -/
theorem cartRamPowerUp_wf {rom : RomImage} {p : Params} (hr : rom.wellFormed = true) (hp : p.cartRamInit.wf 0x2000 = true) :
    (cartRamPowerUp rom p).wf 0x2000 = true := by
  unfold cartRamPowerUp
  split
  · rename_i bs ht
    split
    · exact Memory.wf_writeList hp (by rw [trainer_length hr ht]; decide)
    · exact hp
  · exact hp

theorem beforeReset_memories {rom : RomImage} {p : Params} (sch : Scheme) (hr : rom.wellFormed = true) (hp : p.wellFormed = true) :
    MemoriesOk (beforeReset rom p sch) := by
  simp only [Params.wellFormed, Bool.and_eq_true, decide_eq_true_eq] at hp
  obtain ⟨⟨⟨hram, hcart⟩, hchr⟩, -⟩ := hp
  exact ⟨hram, cartRamPowerUp_wf hr hcart, hchr, rfl, rfl, rfl, rfl, rfl, rfl, rfl⟩

theorem beforeReset_devices (rom : RomImage) (p : Params) (sch : Scheme) : DevicesOk (beforeReset rom p sch) :=
  ⟨⟨Nat.zero_le _, Nat.zero_le _, rfl, fun _ => (by decide : Memory.fill.toNat < 64)⟩, apuOk_powerUp _,
    ⟨Nat.zero_le _, Nat.zero_le _⟩, Nat.le_refl _⟩

/-- What holds of every state of a session. -/
def SessionOk (rom : RomImage) (p : Params) (s : State) : Prop :=
  s.rom = rom ∧ s.params = p ∧ s.fault = none ∧ MemoriesOk s ∧ DevicesOk s

theorem sessionOk_powerUp {rom : RomImage} {p : Params} {s : State} (hp : p.wellFormed = true) (h : powerUp rom p = .next s)
    (events : List HostEvent) : SessionOk rom p { s with hostQueue := events } := by
  obtain ⟨hr, sch, -, rfl⟩ := powerUp_next_iff.1 h
  have hm := beforeReset_memories sch hr hp
  obtain ⟨hppu, hapu, hpads, -⟩ := beforeReset_devices rom p sch
  exact ⟨rfl, rfl, rfl, hm, hppu, hapu, hpads, Nat.zero_le _⟩

theorem sessionOk_step {rom : RomImage} {p : Params} {s t : State} (hs : SessionOk rom p s) (h : step s = .next t) :
    SessionOk rom p t := by
  obtain ⟨hrom, hparams, -, hm, hd⟩ := hs
  obtain ⟨⟨hrom', hparams', -⟩, -, hf⟩ := sessionIsFixed s t h
  exact ⟨hrom'.trans hrom, hparams'.trans hparams, hf, memoriesStayCanonical s t hm h, devicesStayInRange s t hm hd h⟩

/-- Settles O41, by induction on the run. -/
theorem reachableStatesAreOk : Obligations.ReachableStatesAreOk := by
  intro rom p s hp hs
  show SessionOk rom p s
  induction hs with
  | start s events h => exact sessionOk_powerUp hp h events
  | next s t _ ht ih => exact sessionOk_step ih ht

end Sys2Proof.Machine
end

section
/-! The vectors and the stack, the entry and the return of an interrupt as whole next states, and power-up's state written out
(20_memory.md R97; 43_control_flow.md R303, R304; 60_exceptions.md R712, R717; 70_reset_and_hazards.md R750, R751). -/

namespace Sys2Proof.Machine

/-! ## Words and the flags byte -/

/-- Low byte first (20_memory.md R110). -/
theorem wordOf_eq_ofNat (lo hi : Byte) : wordOf lo hi = BitVec.ofNat 16 (lo.toNat + 256 * hi.toNat) := by
  apply BitVec.eq_of_toNat_eq
  have hlo := lo.isLt
  have hhi := hi.isLt
  have hor : hi.toNat <<< 8 ||| lo.toNat = hi.toNat <<< 8 + lo.toNat := (Nat.shiftLeft_add_eq_or_of_lt hlo _).symm
  simp only [wordOf, BitVec.toNat_or, BitVec.toNat_shiftLeft, BitVec.toNat_setWidth, BitVec.toNat_ofNat]
  rw [Nat.mod_eq_of_lt (show lo.toNat < 2 ^ 16 by omega), Nat.mod_eq_of_lt (show hi.toNat < 2 ^ 16 by omega),
    Nat.mod_eq_of_lt (show hi.toNat <<< 8 < 2 ^ 16 by rw [Nat.shiftLeft_eq]; omega), hor,
    Nat.mod_eq_of_lt (by omega), Nat.shiftLeft_eq]
  omega

theorem pack_eq_statusByte (p : Flags) (b : Bool) : p.pack b = statusByte p b := by
  obtain ⟨n, v, b', d, i, z, c⟩ := p
  revert n v b b' d i z c
  decide

/-! ## Vectors -/

/-- A byte of $8000 to $FFFF depends on the ROM image and the mapper only (20_memory.md R96). -/
theorem peek_prg_congr {s t : State} {a : Word} (ha : 0x8000 ≤ a.toNat) (hrom : t.rom = s.rom) (hm : t.mapper = s.mapper) :
    peek t a = peek s a := by
  rw [peek_prg t ha, peek_prg s ha]
  simp [prgUnit, hrom, hm]

/-- A vector's two bytes are memory, low byte first (20_memory.md R97, R110). -/
theorem vectorAt_bytes (s : State) {a : Word} (h0 : 0x8000 ≤ a.toNat) (h1 : 0x8000 ≤ (a + 1).toNat) :
    ∃ lo hi, peek s a = some lo ∧ peek s (a + 1) = some hi ∧ vectorAt s a = BitVec.ofNat 16 (lo.toNat + 256 * hi.toNat) := by
  refine ⟨_, _, peek_prg s h0, peek_prg s h1, ?_⟩
  unfold vectorAt
  rw [peek_prg s h0, peek_prg s h1, ← wordOf_eq_ofNat]
  rfl

theorem vectorAt_congr {s t : State} {a : Word} (h0 : 0x8000 ≤ a.toNat) (h1 : 0x8000 ≤ (a + 1).toNat) (hrom : t.rom = s.rom)
    (hm : t.mapper = s.mapper) : vectorAt t a = vectorAt s a := by
  unfold vectorAt
  rw [peek_prg_congr h0 hrom hm, peek_prg_congr h1 hrom hm]

/-! ## Interrupt entry and return -/

/-- The state after an entry: the return address and the flags pushed, I set where the entry sets it, PC from the vector. -/
theorem interruptEntry_eq (ret : Word) (b setI : Bool) {v : Word} (s : State) (h0 : 0x8000 ≤ v.toNat) (h1 : 0x8000 ≤ (v + 1).toNat) :
    interruptEntry ret b setI v s = { s with
      ram := pushedEntry s.ram s.cpu.sp ret (statusByte s.cpu.p b)
      cpu := { s.cpu with
        sp := s.cpu.sp - 3
        pc := vectorAt s v
        p := { s.cpu.p with i := s.cpu.p.i || setI } } } := by
  have hv : ∀ (c : Cpu) (m : Memory), vectorAt { s with cpu := c, ram := m } v = vectorAt s v :=
    fun _ _ => vectorAt_congr h0 h1 rfl rfl
  have hsp1 : s.cpu.sp - 1 - 1 = s.cpu.sp - 2 := by bv_omega
  have hsp2 : s.cpu.sp - 2 - 1 = s.cpu.sp - 3 := by bv_omega
  simp only [interruptEntry, push, pushWord, State.setFlags, State.setPc, pushedEntry, pushedWord, stackIndex, pack_eq_statusByte,
    hv, hsp1, hsp2]

/-- The state after a return: the flags popped with B forced, then PC, low byte first (43_control_flow.md R304). -/
theorem interruptReturn_eq (s : State) :
    interruptReturn s = { s with
      cpu := { s.cpu with
        sp := s.cpu.sp + 3
        pc := wordOf (s.ram.read (0x100 + (s.cpu.sp + 2).toNat)) (s.ram.read (0x100 + (s.cpu.sp + 3).toNat))
        p := { s.cpu.p.unpack (s.ram.read (0x100 + (s.cpu.sp + 1).toNat)) with b := true } } } := by
  have hsp1 : s.cpu.sp + 1 + 1 = s.cpu.sp + 2 := by bv_omega
  have hsp2 : s.cpu.sp + 2 + 1 = s.cpu.sp + 3 := by bv_omega
  simp only [interruptReturn, dropTop, topWord, topOfStack, State.setFlags, State.setPc, stackIndex, hsp1, hsp2]

/-- Settles O28: an interrupt entry with B and I set, one byte past the padding byte, after PC moved past the opcode. -/
theorem brkEntersTheHandler : Obligations.BrkEntersTheHandler := by
  refine ⟨rfl, fun s => ?_⟩
  have hpc : s.cpu.pc + 1 + 1 = s.cpu.pc + 2 := by bv_omega
  obtain ⟨lo, hi, hlo, hhi, hv⟩ := vectorAt_bytes s (a := irqVector) (by decide) (by decide)
  have hv' : vectorAt (s.advance 1) irqVector = _ := (vectorAt_congr (by decide) (by decide) rfl rfl).trans hv
  have hx : exec .brk s = .next ((interruptEntry (s.cpu.pc + 1 + 1) true true irqVector (s.advance 1)).addCycles 7) := rfl
  refine ⟨lo, hi, hlo, hhi, ?_⟩
  rw [hx, interruptEntry_eq _ _ _ _ (by decide) (by decide), hv', hpc]
  simp [State.addCycles]

/-- Settles O29: an interrupt return after PC moved past the opcode, which the popped PC replaces. -/
theorem rtiRestoresFlagsAndPc : Obligations.RtiRestoresFlagsAndPc := by
  refine ⟨rfl, fun s => ?_⟩
  have hx : exec .rti s = .next ((interruptReturn (s.advance 1)).addCycles 6) := rfl
  rw [hx, interruptReturn_eq, wordOf_eq_ofNat]
  rfl

/-! ## Power-up's state -/

/-- Settles O43: the empty cartridge is well formed and of the fixed scheme, and its reset vector reads $0000. -/
theorem resetStateIsPowerUp : Obligations.ResetStateIsPowerUp := by
  have hp : powerUp RomImage.empty {} = .next State.reset := rfl
  obtain ⟨-, -, -, hm, hd⟩ := sessionOk_powerUp (by decide) hp []
  exact ⟨hp, rfl, ⟨rfl, rfl, rfl⟩, rfl, rfl, ⟨rfl, rfl⟩, ⟨rfl, rfl, rfl⟩, ⟨rfl, rfl, rfl⟩, ⟨rfl, rfl⟩, hm, hd⟩

@[simp] theorem mapperPowerUp_scheme (m : Mirroring) (sch : Scheme) : (mapperPowerUp m sch).scheme = sch := by
  cases sch <;> rfl

/-- The mirror bit at power-up, where the image's mirroring has one (10_state.md R45). -/
theorem initialMirrorBit_eq (m : Mirroring) :
    (m = .vertical → initialMirrorBit m = false) ∧ (m = .horizontal → initialMirrorBit m = true) := by
  cases m <;> decide

theorem sourcesOf_eq (sch : Scheme) : sourcesOf sch = if sch = .eightReg then [.apu, .mapper] else [.apu] := by
  cases sch <;> rfl

theorem cartRamPowerUp_plain {rom : RomImage} {p : Params} (h : rom.trainer = none ∨ p.trainerInstall = false) :
    cartRamPowerUp rom p = p.cartRamInit := by
  unfold cartRamPowerUp
  split
  · rename_i bs ht
    simp only [ht, reduceCtorEq, false_or] at h
    simp [h]
  · rfl

theorem cartRamPowerUp_trainer {rom : RomImage} {p : Params} {bs : List Byte} (ht : rom.trainer = some bs)
    (hi : p.trainerInstall = true) : cartRamPowerUp rom p = p.cartRamInit.writeList 0x1000 bs := by
  simp [cartRamPowerUp, ht, hi]

theorem powerUp_of_malformed {rom : RomImage} (p : Params) (h : rom.wellFormed = false) :
    powerUp rom p = .refused .malformedImage := by
  simp [powerUp, h]

theorem powerUp_of_unlisted {rom : RomImage} {p : Params} (h : rom.wellFormed = true) (hid : ∀ sch, (rom.mapperId, sch) ∉ p.mapperIds) :
    powerUp rom p = .refused (.unsupportedMapper rom.mapperId) := by
  simp [powerUp, h, schemeOf_eq_none_iff.2 hid]

theorem powerUp_of_listed {rom : RomImage} {p : Params} {sch : Scheme} (h : rom.wellFormed = true)
    (hid : (rom.mapperId, sch) ∈ p.mapperIds) : ∃ s, powerUp rom p = .next s := by
  cases hs : schemeOf p.mapperIds rom.mapperId with
  | none => exact absurd hid (schemeOf_eq_none_iff.1 hs sch)
  | some sch' => exact ⟨_, powerUp_next_iff.2 ⟨h, sch', hs, rfl⟩⟩

/-- The CPU after its reset: the parameters' registers and flags, PC from the reset vector (70_reset_and_hazards.md R751). -/
theorem cpuReset_cpu (s : State) : ∃ lo hi, peek (cpuReset s) 0xFFFC = some lo ∧ peek (cpuReset s) 0xFFFD = some hi ∧
    (cpuReset s).cpu = {
      a := s.params.resetA
      x := s.params.resetX
      y := s.params.resetY
      sp := s.params.resetSP
      pc := BitVec.ofNat 16 (lo.toNat + 256 * hi.toNat)
      p := Flags.ofResetByte s.params.resetP
      cycles := s.cpu.cycles + s.params.resetCycles
      nmiPending := false
      nmiDefer := false
      nmiAlt := false } := by
  obtain ⟨lo, hi, hlo, hhi, hv⟩ := vectorAt_bytes s (a := resetVector) (by decide) (by decide)
  refine ⟨lo, hi, ?_, ?_, ?_⟩
  · exact (peek_prg_congr (by decide) rfl rfl).trans hlo
  · exact (peek_prg_congr (by decide) rfl rfl).trans hhi
  · rw [← hv]
    rfl

theorem mapperPowerUp_bank16 {m : Mirroring} {sch : Scheme} {bank : Byte} (h : mapperPowerUp m sch = .bank16 bank) : bank = 0 := by
  cases sch <;> simp [mapperPowerUp] at h
  exact h.symm

/-- The eight-register scheme's registers at power-up (52_mappers.md R598). -/
theorem mapperPowerUp_eightReg {m : Mirroring} {sch : Scheme} {r : EightReg} (h : mapperPowerUp m sch = .eightReg r) :
    r.mirror = initialMirrorBit m ∧ r = {
      bankSelect := 0
      r := #v[0, 2, 4, 5, 6, 7, 0, 1]
      mirror := r.mirror
      ramProtect := 0
      irqLatch := 0
      irqCounter := 0
      irqReload := false
      irqEnabled := false
      irqLine := false } := by
  cases sch <;> simp only [mapperPowerUp, reduceCtorEq, Mapper.eightReg.injEq] at h
  subst h
  exact ⟨rfl, rfl⟩

/-- The dual-variant scheme's registers at power-up, in both variants (52_mappers.md R614). -/
theorem mapperPowerUp_dual {m : Mirroring} {sch : Scheme} {d : DualBank} (h : mapperPowerUp m sch = .dual d) :
    d.mirror = initialMirrorBit m ∧ d = {
      variantA := d.variantA
      prg0 := 0
      prg1 := 0
      mirror := d.mirror
      chrLo := Vector.replicate 8 0
      chrHi := Vector.replicate 8 0 } := by
  cases sch <;> simp only [mapperPowerUp, reduceCtorEq, Mapper.dual.injEq] at h
  all_goals
    subst h
    exact ⟨rfl, rfl⟩

/-- Settles O44: the refusals by the two tests of `powerUp`, the state by what `cpuReset` makes of `beforeReset`. -/
theorem powerUpStartsAtTheResetVector : Obligations.PowerUpStartsAtTheResetVector := by
  intro rom p
  refine ⟨powerUp_of_malformed p, powerUp_of_unlisted, fun sch => powerUp_of_listed, fun s h => ?_⟩
  obtain ⟨-, sch, hsch, rfl⟩ := powerUp_next_iff.1 h
  have hscheme : (cpuReset (beforeReset rom p sch)).mapper.scheme = sch := mapperPowerUp_scheme _ _
  have hmirror := initialMirrorBit_eq rom.mirroring
  have hcycles : (beforeReset rom p sch).cpu.cycles + (beforeReset rom p sch).params.resetCycles = p.resetCycles := Nat.zero_add _
  have hcpu := cpuReset_cpu (beforeReset rom p sch)
  rw [hcycles] at hcpu
  refine ⟨hcpu, rfl, rfl, cartRamPowerUp_plain, fun _ => cartRamPowerUp_trainer, rfl, rfl, ?_, fun _ => mapperPowerUp_bank16,
    fun r hr => ?_, fun d hd => ?_, ?_, rfl, rfl, rfl, rfl, rfl, rfl, rfl, rfl⟩
  · rw [hscheme]
    exact schemeOf_mem hsch
  · obtain ⟨hbit, heq⟩ := mapperPowerUp_eightReg hr
    exact ⟨by rw [hbit]; exact hmirror, heq⟩
  · obtain ⟨hbit, heq⟩ := mapperPowerUp_dual hd
    exact ⟨by rw [hbit]; exact hmirror, heq⟩
  · rw [hscheme]
    exact sourcesOf_eq sch

end Sys2Proof.Machine
end

section
/-! What one-byte accesses do to the CPU, and which shape each instruction has: the facts the rules over all instructions need. -/

namespace Sys2Proof.Machine

/-! ## The CPU across an access -/

theorem ppuReadRegister_cpu (i : Nat) (s : State) : (ppuReadRegister i s).2.cpu = s.cpu := by
  unfold ppuReadRegister
  split
  · rfl
  · rfl
  · unfold readVramData
    dsimp only
    split <;> rfl
  · rfl

theorem ioRead_cpu (i : Nat) (s : State) : (ioRead i s).2.cpu = s.cpu := by
  unfold ioRead
  split <;> rfl

/-- A read changes no register, flag, latch or cycle count. -/
theorem readByte_cpu {a : Word} {s t : State} {v : Byte} (h : readByte a s = .ok v t) : t.cpu = s.cpu := by
  unfold readByte at h
  split at h
  · simp at h
  · obtain ⟨-, rfl⟩ := Access.ok.inj h; rfl
  · obtain ⟨-, rfl⟩ := Access.ok.inj h; exact ppuReadRegister_cpu _ s
  · obtain ⟨-, rfl⟩ := Access.ok.inj h; exact ioRead_cpu _ s
  · obtain ⟨-, rfl⟩ := Access.ok.inj h; rfl
  · obtain ⟨-, rfl⟩ := Access.ok.inj h; rfl

theorem ppuWrite_cpu (a : Nat) (b : Byte) (s : State) : (ppuWrite a b s).cpu = s.cpu := by
  rcases ppuWrite_cases a b s with h | ⟨i, -, h⟩ | ⟨i, -, h⟩ | ⟨i, -, h⟩ <;> rw [h] <;> rfl

theorem ppuWriteRegister_cpu (i : Nat) (b : Byte) (s : State) : (ppuWriteRegister i b s).cpu = s.cpu := by
  unfold ppuWriteRegister
  split
  case h_7 => exact ppuWrite_cpu _ _ s
  all_goals rfl

theorem applyMirrorBit_cpu (b : Bool) (s : State) : (applyMirrorBit b s).cpu = s.cpu := by
  unfold applyMirrorBit
  split <;> rfl

theorem mapperWrite_cpu (a : Word) (b : Byte) (s : State) : (mapperWrite a b s).cpu = s.cpu := by
  unfold mapperWrite
  split
  · rfl
  · rfl
  · dsimp only
    split
    · exact applyMirrorBit_cpu _ _
    · rfl
  · dsimp only
    split
    · exact applyMirrorBit_cpu _ _
    · rfl

theorem oamCopy_cpu {p : Byte} {n i : Nat} {s t : State} (h : oamCopy p i n s = .ok () t) : t.cpu = s.cpu := by
  induction n generalizing i s with
  | zero => obtain ⟨-, rfl⟩ := Access.ok.inj h; rfl
  | succ n ih =>
    simp only [oamCopy] at h
    split at h
    · simp at h
    · rename_i b s1 hr
      have hcpu : s1.cpu = s.cpu := readByte_cpu hr
      exact (ih h).trans hcpu

/-- The cycles a store at `a` takes besides the instruction's own: an OAM DMA's 513 at $4014 (53_scheduler_io.md R640). -/
def dmaCycles (a : Word) : Nat := if a = 0x4014 then 513 else 0

theorem ioWrite_cpu {i : Nat} {b : Byte} {s t : State} (h : ioWrite i b s = .ok () t) :
    t.cpu = { s.cpu with cycles := s.cpu.cycles + if i = 0x14 then 513 else 0 } := by
  unfold ioWrite at h
  split at h
  · rename_i hi
    unfold oamDma at h
    split at h
    · simp at h
    · rename_i hc
      obtain ⟨-, rfl⟩ := Access.ok.inj h
      rw [if_pos hi, State.addCycles, oamCopy_cpu hc]
  · rename_i hi
    rw [if_neg hi]
    split at h
    · obtain ⟨-, rfl⟩ := Access.ok.inj h; rfl
    · obtain ⟨-, rfl⟩ := Access.ok.inj h; rfl

theorem dmaCycles_of_ne {a : Word} (h : a.toNat ≠ 0x4014) : dmaCycles a = 0 :=
  if_neg fun e => h (by rw [e]; rfl)

/-- A write changes nothing of the CPU but the cycle count, by an OAM DMA's 513 cycles exactly at $4014, which only the I/O range
holds. -/
theorem writeByte_cpu {a : Word} {b : Byte} {s t : State} (h : writeByte a b s = .ok () t) :
    t.cpu = { s.cpu with cycles := s.cpu.cycles + dmaCycles a } := by
  rcases cpuRange_cases a with h1 | ⟨h0, h1⟩ | ⟨h0, h1⟩ | ⟨h0, h1⟩ | ⟨h0, h1⟩ | h1
  case inr.inr.inl =>
    rw [writeByte_io b s h0 h1] at h
    rw [ioWrite_cpu h]
    have hiff : a.toNat - 0x4000 = 0x14 ↔ a = 0x4014 := by rw [← BitVec.toNat_inj]; simp; omega
    simp only [dmaCycles, hiff]
  all_goals rw [dmaCycles_of_ne (by omega)]
  · rw [writeByte_ram b s h1] at h
    obtain ⟨-, rfl⟩ := Access.ok.inj h; rfl
  · rw [writeByte_ppu b s h0 h1] at h
    obtain ⟨-, rfl⟩ := Access.ok.inj h; exact ppuWriteRegister_cpu _ b s
  · cases hu : s.params.unlistedIo
    · rw [writeByte_unmapped b s hu h0 h1] at h; simp at h
    · rw [writeByte_zeros b s hu h0 h1] at h
      obtain ⟨-, rfl⟩ := Access.ok.inj h; rfl
  · rw [writeByte_cart b s h0 h1] at h
    obtain ⟨-, rfl⟩ := Access.ok.inj h; rfl
  · rw [writeByte_prg b s h1] at h
    obtain ⟨-, rfl⟩ := Access.ok.inj h; exact mapperWrite_cpu a b s

theorem fetchSource_cpu {src : Source} {s t : State} {v : Byte} (h : fetchSource src s = .ok v t) : t.cpu = s.cpu := by
  cases src with
  | imm v' => obtain ⟨-, rfl⟩ := Access.ok.inj h; rfl
  | mem m => exact readByte_cpu h

/-! ## The shape of each instruction -/

/-- Base cycles and effect of every one-byte instruction: those of 42_shift_incdec.md on the accumulator, X and Y, and all of
44_stack_flags_nop.md, the transfers, BRK, RTI and RTS. -/
def impliedForm : Instr → Option (Nat × (State → State))
  | .brk => some (7, fun s => interruptEntry (s.cpu.pc + 1) true true irqVector s)
  | .rti => some (6, interruptReturn)
  | .rts => some (6, fun s => (dropTop (dropTop s)).setPc (topWord s + 1))
  | .pha => some (3, fun s => push s.cpu.a s)
  | .php => some (3, fun s => push (s.cpu.p.pack true) s)
  | .pla => some (4, fun s => loadReg .a (topOfStack s) (dropTop s))
  | .plp => some (4, fun s => (dropTop s).setFlags (s.cpu.p.unpack (topOfStack s)))
  | .aslAcc => some (2, stepReg .a Flags.asl)
  | .lsrAcc => some (2, stepReg .a Flags.lsr)
  | .rolAcc => some (2, stepReg .a Flags.rol)
  | .rorAcc => some (2, stepReg .a Flags.ror)
  | .inx => some (2, stepReg .x Flags.inc)
  | .iny => some (2, stepReg .y Flags.inc)
  | .dex => some (2, stepReg .x Flags.dec)
  | .dey => some (2, stepReg .y Flags.dec)
  | .tax => some (2, transfer .a .x)
  | .tay => some (2, transfer .a .y)
  | .txa => some (2, transfer .x .a)
  | .tya => some (2, transfer .y .a)
  | .tsx => some (2, transfer .sp .x)
  | .txs => some (2, fun s => s.setReg .sp s.cpu.x)
  | .clc => some (2, fun s => s.setFlags { s.cpu.p with c := false })
  | .sec => some (2, fun s => s.setFlags { s.cpu.p with c := true })
  | .cli => some (2, fun s => s.setFlags { s.cpu.p with i := false })
  | .sei => some (2, fun s => s.setFlags { s.cpu.p with i := true })
  | .cld => some (2, fun s => s.setFlags { s.cpu.p with d := false })
  | .sed => some (2, fun s => s.setFlags { s.cpu.p with d := true })
  | .clv => some (2, fun s => s.setFlags { s.cpu.p with v := false })
  | .nop => some (2, fun s => s)
  | _ => none

theorem exec_of_impliedForm {i : Instr} {base : Nat} {f : State → State} (h : impliedForm i = some (base, f)) (s : State) :
    exec i s = implied base f s := by
  cases i <;> simp only [impliedForm, reduceCtorEq, Option.some.injEq, Prod.mk.injEq] at h <;>
    (obtain ⟨rfl, rfl⟩ := h; rfl)

/-- The shapes of the instruction set: each instruction has one, with what the tables of the other shapes say of it. -/
inductive Shape (i : Instr) : Prop where
  | read (op : ReadOp) (src : Source) (len base : Nat) (h : readForm i = some (op, src, len, base)) (hs : storeForm i = none)
      (hm : rmwForm i = none)
  | store (r : Reg8) (m : Mode) (len base : Nat) (h : storeForm i = some (r, m, len, base)) (hm : rmwForm i = none)
  | rmw (op : RmwOp) (m : Mode) (len base : Nat) (h : rmwForm i = some (op, m, len, base)) (hr : readForm i = none)
      (hs : storeForm i = none)
  | branch (cond : Flags → Bool) (off : Int) (h : branchForm i = some (cond, off)) (hs : storeForm i = none) (hm : rmwForm i = none)
  | implied (base : Nat) (f : State → State) (h : impliedForm i = some (base, f)) (hs : storeForm i = none) (hm : rmwForm i = none)
  | jump (w : Word) (h : i = .jmpAbs w)
  | jumpIndirect (ptr : Word) (h : i = .jmpInd ptr)
  | call (w : Word) (h : i = .jsr w)

/-- Which table lists the instruction; the three jumps are in none. -/
theorem shape (i : Instr) : Shape i := by
  cases i with
  | jmpAbs w => exact .jump w rfl
  | jmpInd ptr => exact .jumpIndirect ptr rfl
  | jsr w => exact .call w rfl
  | _ =>
    first
      | exact .read _ _ _ _ rfl rfl rfl
      | exact .store _ _ _ _ rfl rfl
      | exact .rmw _ _ _ _ rfl rfl rfl
      | exact .branch _ _ rfl rfl rfl
      | exact .implied _ _ rfl rfl rfl

/-! ## Inversion of the shapes on the CPU's side -/

theorem reading_cases {src : Source} {len base : Nat} {f : Byte → State → State} {s t : State}
    (h : reading src len base f s = .next t) :
    ∃ v u, u.cpu = (s.advance len).cpu ∧ t = (f v u).addCycles (base + crossCycle (s.advance len) src) := by
  unfold reading at h
  split at h
  · simp at h
  · rename_i v u hu
    exact ⟨v, u, fetchSource_cpu hu, (Host.Outcome.next.inj h).symm⟩

theorem storing_cases {m : Mode} {r : Reg8} {len base : Nat} {s t : State} (h : storing m r len base s = .next t) :
    t.cpu = { (s.advance len).cpu with
      cycles := s.cpu.cycles + base + dmaCycles (effective (s.advance len) m).1 } := by
  unfold storing at h
  split at h
  · simp at h
  · rename_i hw
    obtain rfl := Host.Outcome.next.inj h
    simp only [State.addCycles, writeByte_cpu hw, State.advance_cpu_cycles, Nat.add_right_comm]

theorem modifying_cases {m : Mode} {len base : Nat} {f : Flags → Byte → Byte × Flags} {s t : State}
    (h : modifying (.mem m) len base f s = .next t) :
    ∃ v, t.cpu = { (s.advance len).cpu with
      p := (f s.cpu.p v).2
      cycles := s.cpu.cycles + base + dmaCycles (effective (s.advance len) m).1 } := by
  simp only [modifying] at h
  split at h
  · simp at h
  · rename_i v s1 hr
    split at h
    · simp at h
    · rename_i s2 hw
      obtain rfl := Host.Outcome.next.inj h
      refine ⟨v, ?_⟩
      simp only [State.addCycles, State.setFlags, writeByte_cpu hw, readByte_cpu hr, State.advance_cpu_cycles, State.advance_cpu_p,
        Nat.add_right_comm]

theorem jumpIndirect_cases {ptr : Word} {s t : State} (h : jumpIndirect ptr s = .next t) :
    ∃ pc, t.cpu = { s.cpu with pc := pc, cycles := s.cpu.cycles + 5 } := by
  unfold jumpIndirect at h
  split at h
  · simp at h
  · rename_i lo s1 h1
    split at h
    · simp at h
    · rename_i hi s2 h2
      obtain rfl := Host.Outcome.next.inj h
      exact ⟨wordOf lo hi, by simp only [State.addCycles, State.setPc, readByte_cpu h2, readByte_cpu h1]⟩

/-- Two cycles, one more when taken, one more when the target is on another page (43_control_flow.md R294). -/
theorem branching_cases {cond : Bool} {off : Int} {s t : State} (h : branching cond off s = .next t) :
    ∃ pc extra, extra ≤ 2 ∧ t.cpu = { s.cpu with pc := pc, cycles := s.cpu.cycles + (2 + extra) } := by
  have hbit : ∀ c, bit01 c ≤ 1 := by decide
  unfold branching at h
  dsimp only at h
  split at h
  · obtain rfl := Host.Outcome.next.inj h
    exact ⟨_, 1 + bit01 _, Nat.add_le_add_left (hbit _) 1, rfl⟩
  · obtain rfl := Host.Outcome.next.inj h
    exact ⟨_, 0, Nat.zero_le _, rfl⟩

end Sys2Proof.Machine
end

section
/-! The frame of an instruction: which registers and flags it may write (10_state.md R21, R23 to R25). -/

namespace Sys2Proof.Machine

/-- From `c` to `d` only the registers and flags of `ws`, PC and the cycle count may change; the NMI latches do not. -/
structure Frame (ws : List Piece) (c d : Cpu) : Prop where
  piece : ∀ q, q ∉ ws → d.piece q = c.piece q
  nmiPending : d.nmiPending = c.nmiPending
  nmiDefer : d.nmiDefer = c.nmiDefer
  nmiAlt : d.nmiAlt = c.nmiAlt

theorem Frame.trans {ws : List Piece} {c d e : Cpu} (h : Frame ws c d) (k : Frame ws d e) : Frame ws c e :=
  ⟨fun q hq => (k.piece q hq).trans (h.piece q hq), k.nmiPending.trans h.nmiPending, k.nmiDefer.trans h.nmiDefer,
    k.nmiAlt.trans h.nmiAlt⟩

/-- PC and the cycle count are no pieces. -/
theorem frame_pc_cycles (ws : List Piece) (c : Cpu) (pc : Word) (n : Nat) : Frame ws c { c with pc := pc, cycles := n } :=
  ⟨fun q _ => by cases q <;> rfl, rfl, rfl, rfl⟩

/-- The flags outside `ws` are the same in `p` and `q`. -/
def Flags.SameOutside (ws : List Piece) (p q : Flags) : Prop :=
  (.flagN ∈ ws ∨ q.n = p.n) ∧ (.flagV ∈ ws ∨ q.v = p.v) ∧ (.flagB ∈ ws ∨ q.b = p.b) ∧ (.flagD ∈ ws ∨ q.d = p.d) ∧
  (.flagI ∈ ws ∨ q.i = p.i) ∧ (.flagZ ∈ ws ∨ q.z = p.z) ∧ (.flagC ∈ ws ∨ q.c = p.c)

theorem frame_flags {ws : List Piece} {c : Cpu} {p : Flags} (h : c.p.SameOutside ws p) : Frame ws c { c with p := p } := by
  obtain ⟨hn, hv, hb, hd, hi, hz, hc⟩ := h
  refine ⟨fun q hq => ?_, rfl, rfl, rfl⟩
  cases q with
  | flagN => exact congrArg bit01 (hn.resolve_left hq)
  | flagV => exact congrArg bit01 (hv.resolve_left hq)
  | flagB => exact congrArg bit01 (hb.resolve_left hq)
  | flagD => exact congrArg bit01 (hd.resolve_left hq)
  | flagI => exact congrArg bit01 (hi.resolve_left hq)
  | flagZ => exact congrArg bit01 (hz.resolve_left hq)
  | flagC => exact congrArg bit01 (hc.resolve_left hq)
  | _ => rfl

/-- The piece a register is. -/
def Reg8.piece : Reg8 → Piece
  | .a => .regA
  | .x => .regX
  | .y => .regY
  | .sp => .regSp

theorem frame_setReg {ws : List Piece} {r : Reg8} (hr : r.piece ∈ ws) (s : State) (v : Byte) : Frame ws s.cpu (s.setReg r v).cpu := by
  have hne : ∀ q, q ∉ ws → q ≠ r.piece := fun q hq e => hq (e ▸ hr)
  refine ⟨fun q hq => ?_, State.setReg_cpu_nmiPending .., State.setReg_cpu_nmiDefer .., State.setReg_cpu_nmiAlt ..⟩
  have := hne q hq
  cases r <;> cases q <;> first | rfl | exact absurd rfl this

theorem frame_setFlags {ws : List Piece} {s : State} {p : Flags} (h : s.cpu.p.SameOutside ws p) : Frame ws s.cpu (s.setFlags p).cpu :=
  frame_flags h

/-- A result into a register, with its flags: the form of every load, transfer, accumulator operation and register step. -/
theorem frame_result {ws : List Piece} {r : Reg8} {s : State} {v : Byte} {p : Flags} (hr : r.piece ∈ ws)
    (hp : s.cpu.p.SameOutside ws p) : Frame ws s.cpu ((s.setReg r v).setFlags p).cpu :=
  (frame_setReg hr s v).trans (frame_setFlags (by rwa [State.setReg_cpu_p]))

/-! ## The flags each computation changes -/

theorem sameOutside_setNZ (p : Flags) (v : Byte) : p.SameOutside [.flagN, .flagZ] (p.setNZ v) := by
  simp [Flags.SameOutside, Flags.setNZ]

theorem Flags.SameOutside.mono {ws ws' : List Piece} {p q : Flags} (h : p.SameOutside ws q) (hw : ws ⊆ ws') : p.SameOutside ws' q := by
  obtain ⟨hn, hv, hb, hd, hi, hz, hc⟩ := h
  exact ⟨hn.imp_left (hw ·), hv.imp_left (hw ·), hb.imp_left (hw ·), hd.imp_left (hw ·), hi.imp_left (hw ·), hz.imp_left (hw ·),
    hc.imp_left (hw ·)⟩

/-- A read-modify-write operation changes the flags its table names (10_state.md R24). -/
theorem rmw_sameOutside (op : RmwOp) (p : Flags) (v : Byte) : p.SameOutside op.writes (op.effect p v).2 := by
  cases op <;> simp [Flags.SameOutside, RmwOp.writes, RmwOp.effect, Flags.asl, Flags.lsr, Flags.rol, Flags.ror, Flags.inc, Flags.dec,
    Flags.setNZ]

/-! ## The frame of each shape -/

theorem frame_loadReg {ws : List Piece} {r : Reg8} (hr : r.piece ∈ ws) (hw : [.flagN, .flagZ] ⊆ ws) (v : Byte) (s : State) :
    Frame ws s.cpu (loadReg r v s).cpu :=
  frame_result hr ((sameOutside_setNZ _ v).mono hw)

theorem frame_stepReg {ws : List Piece} {r : Reg8} (hr : r.piece ∈ ws) (op : RmwOp) (hw : op.writes ⊆ ws) (s : State) :
    Frame ws s.cpu (stepReg r op.effect s).cpu :=
  frame_result hr ((rmw_sameOutside op _ _).mono hw)

theorem frame_readOp (op : ReadOp) (v : Byte) (s : State) : Frame op.writes s.cpu (op.effect v s).cpu := by
  cases op with
  | opLda => exact frame_loadReg (by decide) (by decide) v s
  | opLdx => exact frame_loadReg (by decide) (by decide) v s
  | opLdy => exact frame_loadReg (by decide) (by decide) v s
  | opAdc => exact frame_result (by decide) (by simp [Flags.SameOutside, ReadOp.writes, Flags.adc, Flags.setNZ])
  | opSbc => exact frame_result (by decide) (by simp [Flags.SameOutside, ReadOp.writes, Flags.sbc, Flags.setNZ])
  | opAnd => exact frame_loadReg (by decide) (by decide) _ s
  | opOra => exact frame_loadReg (by decide) (by decide) _ s
  | opEor => exact frame_loadReg (by decide) (by decide) _ s
  | opCmp => exact frame_setFlags (by simp [Flags.SameOutside, ReadOp.writes, Flags.compare])
  | opCpx => exact frame_setFlags (by simp [Flags.SameOutside, ReadOp.writes, Flags.compare])
  | opCpy => exact frame_setFlags (by simp [Flags.SameOutside, ReadOp.writes, Flags.compare])
  | opBit => exact frame_setFlags (by simp [Flags.SameOutside, ReadOp.writes, Flags.bitTest])

theorem frame_push {ws : List Piece} (hw : .regSp ∈ ws) (b : Byte) (s : State) : Frame ws s.cpu (push b s).cpu :=
  frame_setReg (r := .sp) hw s (s.cpu.sp - 1)

theorem frame_dropTop {ws : List Piece} (hw : .regSp ∈ ws) (s : State) : Frame ws s.cpu (dropTop s).cpu :=
  frame_setReg (r := .sp) hw s (s.cpu.sp + 1)

theorem frame_setPc (ws : List Piece) (s : State) (w : Word) : Frame ws s.cpu (s.setPc w).cpu := frame_pc_cycles ws s.cpu w s.cpu.cycles

theorem frame_addCycles (ws : List Piece) (s : State) (n : Nat) : Frame ws s.cpu (s.addCycles n).cpu :=
  frame_pc_cycles ws s.cpu s.cpu.pc (s.cpu.cycles + n)

theorem frame_pushWord {ws : List Piece} (hw : .regSp ∈ ws) (w : Word) (s : State) : Frame ws s.cpu (pushWord w s).cpu :=
  (frame_push hw _ s).trans (frame_push hw _ _)

theorem frame_interruptEntry (ret : Word) (b setI : Bool) (v : Word) (s : State) :
    Frame [.regSp, .flagI] s.cpu (interruptEntry ret b setI v s).cpu :=
  (((frame_pushWord (by decide) ret s).trans (frame_push (by decide) _ _)).trans
    (frame_setFlags (by simp [Flags.SameOutside]))).trans (frame_setPc _ _ _)

theorem frame_interruptReturn (s : State) :
    Frame [.regSp, .flagN, .flagV, .flagB, .flagD, .flagI, .flagZ, .flagC] s.cpu (interruptReturn s).cpu :=
  ((((frame_dropTop (by decide) s).trans (frame_setFlags (by simp [Flags.SameOutside]))).trans (frame_dropTop (by decide) _)).trans
    (frame_dropTop (by decide) _)).trans (frame_setPc _ _ _)

theorem instrWrites_of_impliedForm {i : Instr} {base : Nat} {f : State → State} (h : impliedForm i = some (base, f)) :
    instrWrites i = ownWrites i := by
  cases i <;> simp only [impliedForm, reduceCtorEq] at h <;> rfl

/-- A one-byte instruction writes what the tables give it. -/
theorem frame_impliedForm {i : Instr} {base : Nat} {f : State → State} (h : impliedForm i = some (base, f)) (s : State) :
    Frame (instrWrites i) s.cpu (f s).cpu := by
  rw [instrWrites_of_impliedForm h]
  cases i <;> simp only [impliedForm, reduceCtorEq, Option.some.injEq, Prod.mk.injEq] at h <;> obtain ⟨-, rfl⟩ := h <;>
    simp only [ownWrites]
  case brk => exact frame_interruptEntry _ _ _ _ s
  case rti => exact frame_interruptReturn s
  case rts => exact ((frame_dropTop (by decide) s).trans (frame_dropTop (by decide) _)).trans (frame_setPc _ _ _)
  case pha => exact frame_push (by decide) _ s
  case php => exact frame_push (by decide) _ s
  case pla => exact (frame_dropTop (by decide) s).trans (frame_loadReg (by decide) (by decide) _ _)
  case plp => exact (frame_dropTop (by decide) s).trans (frame_setFlags (by simp [Flags.SameOutside, Flags.unpack]))
  case aslAcc => exact frame_stepReg (by decide) .opAsl (by decide) s
  case lsrAcc => exact frame_stepReg (by decide) .opLsr (by decide) s
  case rolAcc => exact frame_stepReg (by decide) .opRol (by decide) s
  case rorAcc => exact frame_stepReg (by decide) .opRor (by decide) s
  case inx => exact frame_stepReg (by decide) .opInc (by decide) s
  case iny => exact frame_stepReg (by decide) .opInc (by decide) s
  case dex => exact frame_stepReg (by decide) .opDec (by decide) s
  case dey => exact frame_stepReg (by decide) .opDec (by decide) s
  case tax => exact frame_loadReg (by decide) (by decide) _ s
  case tay => exact frame_loadReg (by decide) (by decide) _ s
  case txa => exact frame_loadReg (by decide) (by decide) _ s
  case tya => exact frame_loadReg (by decide) (by decide) _ s
  case tsx => exact frame_loadReg (by decide) (by decide) _ s
  case txs => exact frame_setReg (by decide) s _
  case nop => exact frame_pc_cycles _ s.cpu _ _
  all_goals exact frame_setFlags (by simp [Flags.SameOutside])

theorem frame_exec {i : Instr} {s t : State} (h : exec i s = .next t) : Frame (instrWrites i) s.cpu t.cpu := by
  cases shape i with
  | read op src len base hf _ _ =>
    rw [exec_of_readForm hf] at h
    obtain ⟨v, u, hu, rfl⟩ := reading_cases h
    rw [show instrWrites i = op.writes by simp [instrWrites, hf]]
    have hread : Frame op.writes s.cpu u.cpu := hu ▸ frame_pc_cycles _ s.cpu _ _
    exact (hread.trans (frame_readOp op v u)).trans (frame_addCycles _ _ _)
  | store r m len base hf _ =>
    rw [exec_of_storeForm hf] at h
    rw [storing_cases h]
    exact frame_pc_cycles _ s.cpu _ _
  | rmw op m len base hf hr _ =>
    rw [exec_of_rmwForm hf] at h
    obtain ⟨v, hcpu⟩ := modifying_cases h
    rw [show instrWrites i = op.writes by simp [instrWrites, hf, hr], hcpu]
    exact (frame_flags (rmw_sameOutside op s.cpu.p v)).trans (frame_pc_cycles _ _ _ _)
  | branch cond off hf _ _ =>
    rw [exec_of_branchForm hf] at h
    obtain ⟨pc, extra, -, hcpu⟩ := branching_cases h
    rw [hcpu]
    exact frame_pc_cycles _ s.cpu _ _
  | implied base f hf _ _ =>
    rw [exec_of_impliedForm hf] at h
    obtain rfl := Host.Outcome.next.inj h
    exact ((frame_setPc _ s _).trans (frame_impliedForm hf (s.advance 1))).trans (frame_addCycles _ _ _)
  | jump w hi =>
    subst hi
    obtain rfl := Host.Outcome.next.inj h
    exact frame_pc_cycles _ s.cpu _ _
  | jumpIndirect ptr hi =>
    subst hi
    obtain ⟨pc, hcpu⟩ := jumpIndirect_cases (show jumpIndirect ptr (s.advance 3) = .next t from h)
    rw [hcpu]
    exact frame_pc_cycles _ s.cpu _ _
  | call w hi =>
    subst hi
    obtain rfl := Host.Outcome.next.inj h
    show Frame [.regSp] s.cpu _
    exact (((frame_setPc _ s _).trans (frame_pushWord (by decide) _ (s.advance 3))).trans (frame_setPc _ _ _)).trans (frame_addCycles _ _ _)

/-- Settles O31: the frame of `exec`, shape by shape. -/
theorem onlyTheTablesRegistersChange : Obligations.OnlyTheTablesRegistersChange := by
  intro i s t h
  obtain ⟨hpiece, hpending, hdefer, halt⟩ := frame_exec h
  exact ⟨hpiece, hpending, hdefer, halt⟩

end Sys2Proof.Machine
end

section
/-! The cycle count of an instruction (30_encoding.md R156, R168; 53_scheduler_io.md R633, R640; 70_reset_and_hazards.md R780). -/

namespace Sys2Proof.Machine

/-! ## The base counts of the tables -/

theorem readForm_base {i : Instr} {op : ReadOp} {src : Source} {len base : Nat} (h : readForm i = some (op, src, len, base)) :
    2 ≤ base ∧ base ≤ 6 := by
  cases i <;> simp only [readForm, reduceCtorEq, Option.some.injEq, Prod.mk.injEq] at h <;> omega

theorem storeForm_base {i : Instr} {r : Reg8} {m : Mode} {len base : Nat} (h : storeForm i = some (r, m, len, base)) :
    2 ≤ base ∧ base ≤ 7 := by
  cases i <;> simp only [storeForm, reduceCtorEq, Option.some.injEq, Prod.mk.injEq] at h <;> omega

theorem rmwForm_base {i : Instr} {op : RmwOp} {m : Mode} {len base : Nat} (h : rmwForm i = some (op, m, len, base)) :
    2 ≤ base ∧ base ≤ 7 := by
  cases i <;> simp only [rmwForm, reduceCtorEq, Option.some.injEq, Prod.mk.injEq] at h <;> omega

theorem impliedForm_base {i : Instr} {base : Nat} {f : State → State} (h : impliedForm i = some (base, f)) :
    2 ≤ base ∧ base ≤ 7 := by
  cases i <;> simp only [impliedForm, reduceCtorEq, Option.some.injEq, Prod.mk.injEq] at h <;> omega

/-! ## The effects take no cycles of their own -/

theorem impliedForm_cycles {i : Instr} {base : Nat} {f : State → State} (h : impliedForm i = some (base, f)) (s : State) :
    (f s).cpu.cycles = s.cpu.cycles := by
  cases i <;> simp only [impliedForm, reduceCtorEq, Option.some.injEq, Prod.mk.injEq] at h <;> (obtain ⟨-, rfl⟩ := h; rfl)

theorem readOp_cycles (op : ReadOp) (v : Byte) (s : State) : (op.effect v s).cpu.cycles = s.cpu.cycles := by
  cases op <;> rfl

theorem crossCycle_le_one (s : State) (src : Source) : crossCycle s src ≤ 1 := by
  have hbit : ∀ c, bit01 c ≤ 1 := by decide
  cases src with
  | imm v => exact Nat.zero_le 1
  | mem m => exact hbit _

/-! ## Which instructions start an OAM DMA -/

theorem startsOamDma_of_store {i : Instr} {r : Reg8} {m : Mode} {len base : Nat} (h : storeForm i = some (r, m, len, base))
    (s : State) : (if startsOamDma i s then 513 else 0) = dmaCycles (effective (s.advance len) m).1 := by
  simp [startsOamDma, h, dmaCycles]

theorem startsOamDma_of_rmw {i : Instr} {op : RmwOp} {m : Mode} {len base : Nat} (h : rmwForm i = some (op, m, len, base))
    (hs : storeForm i = none) (s : State) :
    (if startsOamDma i s then 513 else 0) = dmaCycles (effective (s.advance len) m).1 := by
  simp [startsOamDma, h, hs, dmaCycles]

theorem not_startsOamDma {i : Instr} (hs : storeForm i = none) (hm : rmwForm i = none) (s : State) : startsOamDma i s = false := by
  simp [startsOamDma, hs, hm]

/-- What O33 says of one instruction that went from `s` to `t`. -/
def CountsCycles (i : Instr) (s t : State) : Prop :=
  ∃ own, 2 ≤ own ∧ own ≤ 7 ∧ t.cpu.cycles = s.cpu.cycles + own + (if startsOamDma i s then 513 else 0) ∧
    (∀ r m len base, storeForm i = some (r, m, len, base) → own = base) ∧
    (∀ op m len base, rmwForm i = some (op, m, len, base) → own = base)

/-- The count of an instruction that neither stores nor modifies memory. -/
theorem countsCycles_of_no_store {i : Instr} {s t : State} {own : Nat} (hs : storeForm i = none) (hm : rmwForm i = none)
    (h2 : 2 ≤ own) (h7 : own ≤ 7) (h : t.cpu.cycles = s.cpu.cycles + own) : CountsCycles i s t :=
  ⟨own, h2, h7, by simpa [not_startsOamDma hs hm] using h, by simp [hs], by simp [hm]⟩

/-- Settles O33: shape by shape, the base count of the form plus the page-cross or branch extra, and a DMA's cycles from the one write
a store or a read-modify-write instruction makes. -/
theorem cyclesPerInstruction : Obligations.CyclesPerInstruction := by
  intro i s t h
  show CountsCycles i s t
  cases shape i with
  | read op src len base hf hs hm =>
    rw [exec_of_readForm hf] at h
    obtain ⟨v, u, hu, rfl⟩ := reading_cases h
    obtain ⟨h2, h6⟩ := readForm_base hf
    have hcross := crossCycle_le_one (s.advance len) src
    refine countsCycles_of_no_store hs hm (own := base + crossCycle (s.advance len) src) (by omega) (by omega) ?_
    rw [State.addCycles_cpu_cycles, readOp_cycles, hu, State.advance_cpu_cycles]
  | store r m len base hf hm =>
    rw [exec_of_storeForm hf] at h
    obtain ⟨h2, h7⟩ := storeForm_base hf
    exact ⟨base, h2, h7, by rw [storing_cases h, startsOamDma_of_store hf], by simp [hf], by simp [hm]⟩
  | rmw op m len base hf _ hs =>
    rw [exec_of_rmwForm hf] at h
    obtain ⟨v, hcpu⟩ := modifying_cases h
    obtain ⟨h2, h7⟩ := rmwForm_base hf
    exact ⟨base, h2, h7, by rw [hcpu, startsOamDma_of_rmw hf hs], by simp [hs], by simp [hf]⟩
  | branch cond off hf hs hm =>
    rw [exec_of_branchForm hf] at h
    obtain ⟨pc, extra, hextra, hcpu⟩ := branching_cases h
    exact countsCycles_of_no_store hs hm (own := 2 + extra) (by omega) (by omega) (by rw [hcpu])
  | implied base f hf hs hm =>
    rw [exec_of_impliedForm hf] at h
    obtain rfl := Host.Outcome.next.inj h
    obtain ⟨h2, h7⟩ := impliedForm_base hf
    refine countsCycles_of_no_store hs hm h2 h7 ?_
    rw [State.addCycles_cpu_cycles, impliedForm_cycles hf, State.advance_cpu_cycles]
  | jump w hi =>
    subst hi
    obtain rfl := Host.Outcome.next.inj h
    exact countsCycles_of_no_store rfl rfl (own := 3) (by decide) (by decide) rfl
  | jumpIndirect ptr hi =>
    subst hi
    obtain ⟨pc, hcpu⟩ := jumpIndirect_cases (show jumpIndirect ptr (s.advance 3) = .next t from h)
    exact countsCycles_of_no_store rfl rfl (own := 5) (by decide) (by decide) (by rw [hcpu]; rfl)
  | call w hi =>
    subst hi
    obtain rfl := Host.Outcome.next.inj h
    exact countsCycles_of_no_store rfl rfl (own := 6) (by decide) (by decide) rfl

end Sys2Proof.Machine
end

section
/-! One-byte accesses of the CPU space (20_memory.md R90 to R96, R100): what each range answers, what a read leaves unchanged, and the
stop of an access no region covers (R94). -/

namespace Sys2Proof.Machine

/-! ## What each range answers -/

/-- Settles O8: the two RAM ranges of the map, resolved. -/
theorem ramAndCartridgeRam : Obligations.RamAndCartridgeRam :=
  ⟨fun s _ b h => ⟨readByte_ram s h, writeByte_ram b s h⟩,
   fun s _ b h0 h => ⟨readByte_cart s h0 (by omega), writeByte_cart b s h0 (by omega)⟩⟩

/-- The registers below $4015 are write-only (20_memory.md R93). -/
theorem ioRead_of_writeOnly {i : Nat} (s : State) (h : i ≤ 0x14) : ioRead i s = (0, s) := by
  unfold ioRead
  split
  case h_4 => rfl
  all_goals omega

/-- Every I/O register but the DMA's and the controllers' is the APU's. -/
theorem ioWrite_apu {i : Nat} (b : Byte) (s : State) (hdma : i ≠ 0x14) (hpad : i ≠ 0x16) :
    ioWrite i b s = .ok () { s with apu := s.apu.writeRegister i b } := by
  rw [ioWrite, if_neg hdma, if_neg hpad]

/-- Settles O9, range by range. -/
theorem deviceAndUnlistedRanges : Obligations.DeviceAndUnlistedRanges := by
  refine ⟨fun s a b h0 h => ⟨readByte_ppu s h0 (by omega), writeByte_ppu b s h0 (by omega)⟩, fun s a h0 h => ?_, fun s a b h => ?_,
    fun s a b h0 h hu => ⟨readByte_unmapped s hu h0 (by omega), writeByte_unmapped b s hu h0 (by omega)⟩,
    fun s a b h0 h hu => ⟨readByte_zeros s hu h0 (by omega), writeByte_zeros b s hu h0 (by omega)⟩⟩
  · rw [readByte_io s h0 (by omega), ioRead_of_writeOnly s (by omega)]
  · have hr : (0x4000 ≤ a.toNat ∧ a.toNat ≤ 0x4013) ∨ a.toNat = 0x4015 ∨ a.toNat = 0x4017 :=
      h.imp_right (Or.imp (congrArg BitVec.toNat) (congrArg BitVec.toNat))
    rw [writeByte_io b s (by omega) (by omega), ioWrite_apu b s (by omega) (by omega)]

/-! ## What a read leaves unchanged -/

/-- Every byte of memory, the mapper's registers and ROM are the same in two states. -/
structure SameMemories (s t : State) : Prop where
  ram : t.ram = s.ram
  cartRam : t.cartRam = s.cartRam
  chrRam : t.chrRam = s.chrRam
  rom : t.rom = s.rom
  mapper : t.mapper = s.mapper
  oam : t.ppu.oam = s.ppu.oam
  nt : t.ppu.nt = s.ppu.nt
  palette : t.ppu.palette = s.ppu.palette

theorem SameMemories.refl (s : State) : SameMemories s s := ⟨rfl, rfl, rfl, rfl, rfl, rfl, rfl, rfl⟩

theorem SameMemories.trans {s t u : State} (h : SameMemories s t) (k : SameMemories t u) : SameMemories s u :=
  ⟨k.ram.trans h.ram, k.cartRam.trans h.cartRam, k.chrRam.trans h.chrRam, k.rom.trans h.rom, k.mapper.trans h.mapper,
    k.oam.trans h.oam, k.nt.trans h.nt, k.palette.trans h.palette⟩

theorem SameMemories.peek {s t : State} (h : SameMemories s t) (a : Word) : peek t a = peek s a :=
  peek_congr h.ram h.cartRam h.rom h.mapper a

/-- A change of the CPU alone. -/
theorem SameMemories.ofCpu (s : State) (c : Cpu) : SameMemories s { s with cpu := c } :=
  ⟨rfl, rfl, rfl, rfl, rfl, rfl, rfl, rfl⟩

theorem ppuReadRegister_sameMemories (i : Nat) (s : State) : SameMemories s (ppuReadRegister i s).2 := by
  unfold ppuReadRegister
  split
  case h_3 =>
    unfold readVramData
    dsimp only
    split <;> exact ⟨rfl, rfl, rfl, rfl, rfl, rfl, rfl, rfl⟩
  all_goals exact ⟨rfl, rfl, rfl, rfl, rfl, rfl, rfl, rfl⟩

theorem ioRead_sameMemories (i : Nat) (s : State) : SameMemories s (ioRead i s).2 := by
  unfold ioRead
  split <;> exact ⟨rfl, rfl, rfl, rfl, rfl, rfl, rfl, rfl⟩

/-- The side effects of a read are the devices' own: a PPU latch, buffer or address, an APU flag, a controller's index. -/
theorem readByte_sameMemories {a : Word} {s t : State} {v : Byte} (h : readByte a s = .ok v t) : SameMemories s t := by
  unfold readByte at h
  split at h
  · simp at h
  · obtain ⟨-, rfl⟩ := Access.ok.inj h; exact .refl s
  · obtain ⟨-, rfl⟩ := Access.ok.inj h; exact ppuReadRegister_sameMemories _ s
  · obtain ⟨-, rfl⟩ := Access.ok.inj h; exact ioRead_sameMemories _ s
  · obtain ⟨-, rfl⟩ := Access.ok.inj h; exact .refl s
  · obtain ⟨-, rfl⟩ := Access.ok.inj h; exact .refl s

/-- Outside the device registers a read is `peek`, with $00 where nothing is listed. -/
theorem readByte_outside_devices {a : Word} {s t : State} {v : Byte} (ha : a.toNat < 0x2000 ∨ 0x4018 ≤ a.toNat)
    (h : readByte a s = .ok v t) : t = s ∧ v = (peek s a).getD 0 := by
  cases hp : peek s a with
  | some b =>
    rw [readByte_of_peek hp] at h
    obtain ⟨rfl, rfl⟩ := Access.ok.inj h
    exact ⟨rfl, rfl⟩
  | none =>
    have hrange : 0x4018 ≤ a.toNat ∧ a.toNat < 0x6000 := by
      rcases cpuRange_cases a with h1 | ⟨h0, h1⟩ | ⟨h0, h1⟩ | ⟨h0, h1⟩ | ⟨h0, h1⟩ | h1
      · simp [peek_ram s h1] at hp
      · omega
      · omega
      · exact ⟨h0, h1⟩
      · simp [peek_cart s h0 h1] at hp
      · simp [peek_prg s h1] at hp
    cases hu : s.params.unlistedIo with
    | fault => simp [readByte_unmapped s hu hrange.1 hrange.2] at h
    | zero =>
      rw [readByte_zeros s hu hrange.1 hrange.2] at h
      obtain ⟨rfl, rfl⟩ := Access.ok.inj h
      exact ⟨rfl, rfl⟩

/-- Settles O10: a read keeps every memory, and outside the devices it is `peek`. -/
theorem readsKeepMemory : Obligations.ReadsKeepMemory := by
  intro s t a v h
  have hsame := readByte_sameMemories h
  exact ⟨readByte_cpu h, hsame.peek, hsame.ram, hsame.cartRam, hsame.chrRam, hsame.rom, hsame.mapper, hsame.oam, hsame.nt,
    hsame.palette, fun ha => readByte_outside_devices ha h⟩

/-! ## The stop of an unmapped operand -/

/-- A write outside every region faults with its address. -/
theorem writeByte_of_not_mapped {a : Word} (b : Byte) {s : State} (h : ¬ Mapped s a) :
    writeByte a b s = .fault (.unmappedAddress .cpu a.toNat) := by
  simp only [Mapped, not_or, Nat.not_lt, Nat.not_le] at h
  obtain ⟨hz, h0, h1⟩ := h
  cases hu : s.params.unlistedIo with
  | fault => exact writeByte_unmapped b s hu h0 h1
  | zero => exact absurd hu hz

/-- Which addresses are mapped depends on the parameters only. -/
theorem mapped_congr {s t : State} (h : t.params = s.params) (a : Word) : Mapped t a ↔ Mapped s a := by
  rw [Mapped, Mapped, h]

theorem storing_fault {m : Mode} {r : Reg8} {len base : Nat} {s : State} {e : Fault}
    (h : writeByte (effective (s.advance len) m).1 (s.getReg r) (s.advance len) = .fault e) : storing m r len base s = .fault e := by
  simp [storing, h]

theorem modifying_read_fault {m : Mode} {len base : Nat} {f : Flags → Byte → Byte × Flags} {s : State} {e : Fault}
    (h : readByte (effective (s.advance len) m).1 (s.advance len) = .fault e) : modifying (.mem m) len base f s = .fault e := by
  simp [modifying, h]

theorem jumpIndirect_low_fault {ptr : Word} {s : State} {e : Fault} (h : readByte ptr s = .fault e) :
    jumpIndirect ptr s = .fault e := by
  simp [jumpIndirect, h]

theorem jumpIndirect_high_fault {ptr : Word} {s t : State} {lo : Byte} {e : Fault} (hlo : readByte ptr s = .ok lo t)
    (hhi : readByte (indirectHigh s.params.jmpIndPageWrap ptr) t = .fault e) : jumpIndirect ptr s = .fault e := by
  simp [jumpIndirect, hlo, hhi]

/-- Settles O11: the first access of each shape is the one that stops it. -/
theorem unmappedOperandFaults : Obligations.UnmappedOperandFaults := by
  refine ⟨fun i op m len base s hf h => ?_, fun i r m len base s hf h => ?_, fun i op m len base s hf h => ?_, fun s ptr => ⟨?_, ?_⟩⟩
  · rw [exec_of_readForm hf]
    exact reading_fault (readByte_of_not_mapped h)
  · rw [exec_of_storeForm hf]
    exact storing_fault (writeByte_of_not_mapped _ h)
  · rw [exec_of_rmwForm hf]
    exact modifying_read_fault (readByte_of_not_mapped h)
  · exact fun h => jumpIndirect_low_fault (s := s.advance 3) (readByte_of_not_mapped h)
  · intro hptr hsecond
    obtain ⟨lo, t, hlo⟩ := (readByte_ok_iff_mapped ptr (s.advance 3)).2 hptr
    exact jumpIndirect_high_fault hlo
      (readByte_of_not_mapped fun h => hsecond ((mapped_congr (kept_readByte hlo).params _).1 h))

/-! ## Instructions that store nothing -/

/-- The inversion of a reading instruction. -/
theorem reading_inv {src : Source} {len base : Nat} {f : Byte → State → State} {s t : State}
    (h : reading src len base f s = .next t) :
    ∃ v u, fetchSource src (s.advance len) = .ok v u ∧ t = (f v u).addCycles (base + crossCycle (s.advance len) src) := by
  unfold reading at h
  split at h
  · simp at h
  · rename_i v u hu
    exact ⟨v, u, hu, (Host.Outcome.next.inj h).symm⟩

theorem fetchSource_sameMemories {src : Source} {s t : State} {v : Byte} (h : fetchSource src s = .ok v t) : SameMemories s t := by
  cases src with
  | imm v' => obtain ⟨-, rfl⟩ := Access.ok.inj h; exact .refl s
  | mem m => exact readByte_sameMemories h

theorem readOp_onlyCpu (op : ReadOp) (v : Byte) (s : State) : op.effect v s = { s with cpu := (op.effect v s).cpu } := by
  cases op <;> rfl

theorem branching_onlyCpu {cond : Bool} {off : Int} {s t : State} (h : branching cond off s = .next t) : t = { s with cpu := t.cpu } := by
  unfold branching at h
  dsimp only at h
  split at h <;> (obtain rfl := Host.Outcome.next.inj h; rfl)

/-- The pushes are the one-byte instructions that store. -/
theorem impliedForm_onlyCpu {i : Instr} {base : Nat} {f : State → State} (h : impliedForm i = some (base, f))
    (hi : storesMemory i = false) (s : State) : f s = { s with cpu := (f s).cpu } := by
  cases i <;> simp only [impliedForm, reduceCtorEq, Option.some.injEq, Prod.mk.injEq] at h <;> obtain ⟨-, rfl⟩ := h
  case brk => exact absurd hi (by decide)
  case php => exact absurd hi (by decide)
  case pha => exact absurd hi (by decide)
  all_goals rfl

theorem jumpIndirect_sameMemories {ptr : Word} {s t : State} (h : jumpIndirect ptr s = .next t) : SameMemories s t := by
  unfold jumpIndirect at h
  split at h
  · simp at h
  · rename_i lo s1 h1
    split at h
    · simp at h
    · rename_i hi s2 h2
      obtain rfl := Host.Outcome.next.inj h
      exact ((readByte_sameMemories h1).trans (readByte_sameMemories h2)).trans (.ofCpu _ _)

theorem exec_sameMemories {i : Instr} {s t : State} (h : exec i s = .next t) (hi : storesMemory i = false) : SameMemories s t := by
  cases shape i with
  | read op src len base hf _ _ =>
    rw [exec_of_readForm hf] at h
    obtain ⟨v, u, hu, rfl⟩ := reading_inv h
    rw [readOp_onlyCpu op v u]
    exact ((SameMemories.ofCpu s _).trans (fetchSource_sameMemories hu)).trans (.ofCpu u _)
  | store r m len base hf _ => simp [storesMemory, hf] at hi
  | rmw op m len base hf _ _ => simp [storesMemory, hf] at hi
  | branch cond off hf _ _ =>
    rw [exec_of_branchForm hf] at h
    rw [branching_onlyCpu h]
    exact .ofCpu s _
  | implied base f hf _ _ =>
    rw [exec_of_impliedForm hf] at h
    obtain rfl := Host.Outcome.next.inj h
    rw [impliedForm_onlyCpu hf hi]
    exact .ofCpu s _
  | jump w hw =>
    subst hw
    obtain rfl := Host.Outcome.next.inj h
    exact .ofCpu s _
  | jumpIndirect ptr hp =>
    subst hp
    exact (SameMemories.ofCpu s _).trans (jumpIndirect_sameMemories (s := s.advance 3) h)
  | call w hw =>
    subst hw
    simp [storesMemory, pushes, storeForm, rmwForm, encode, formatWord] at hi

/-- Settles O32, shape by shape. -/
theorem onlyStoresChangeMemory : Obligations.OnlyStoresChangeMemory := by
  intro i s t h hi
  have hsame := exec_sameMemories h hi
  exact ⟨hsame.peek, hsame.ram, hsame.cartRam, hsame.chrRam, hsame.oam, hsame.nt, hsame.palette, hsame.mapper⟩

end Sys2Proof.Machine
end

section
/-! The frame of a store and of a read-modify-write instruction on RAM (20_memory.md R91, R95; 40_load_store_transfer.md R204 to R206;
42_shift_incdec.md R260 to R266). -/

namespace Sys2Proof.Machine

/-! ## A byte written to RAM -/

/-- Every byte of RAM can be seen without a read. -/
theorem IsRam.peek_isSome {a : Word} (h : IsRam a) (s : State) : ∃ b, peek s a = some b := by
  rcases h with h | ⟨h0, h1⟩
  · exact ⟨_, peek_ram s h⟩
  · exact ⟨_, peek_cart s h0 h1⟩

/-- Internal RAM is seen below $2000 only. -/
theorem peek_setRam (s : State) (m : Memory) {a : Word} (h : 0x2000 ≤ a.toNat) : peek { s with ram := m } a = peek s a := by
  rcases cpuRange_cases a with h1 | ⟨h0, h1⟩ | ⟨h0, h1⟩ | ⟨h0, h1⟩ | ⟨h0, h1⟩ | h1
  · omega
  · rw [peek_device s h0 (by omega), peek_device _ h0 (by omega)]
  · rw [peek_device s (by omega) h1, peek_device _ (by omega) h1]
  · rw [peek_unlisted s h0 h1, peek_unlisted _ h0 h1]
  · rw [peek_cart s h0 h1, peek_cart _ h0 h1]
  · exact peek_prg_congr h1 rfl rfl

/-- Cartridge RAM is seen at $6000 to $7FFF only. -/
theorem peek_setCartRam (s : State) (m : Memory) {a : Word} (h : ¬ (0x6000 ≤ a.toNat ∧ a.toNat < 0x8000)) :
    peek { s with cartRam := m } a = peek s a := by
  rcases cpuRange_cases a with h1 | ⟨h0, h1⟩ | ⟨h0, h1⟩ | ⟨h0, h1⟩ | ⟨h0, h1⟩ | h1
  · rw [peek_ram s h1, peek_ram _ h1]
  · rw [peek_device s h0 (by omega), peek_device _ h0 (by omega)]
  · rw [peek_device s (by omega) h1, peek_device _ (by omega) h1]
  · rw [peek_unlisted s h0 h1, peek_unlisted _ h0 h1]
  · exact absurd ⟨h0, h1⟩ h
  · exact peek_prg_congr h1 rfl rfl

/-- Below $2000 two addresses are one byte exactly when they agree modulo $800. -/
theorem sameByte_iff_of_ram {a a' : Word} (h : a.toNat < 0x2000) :
    SameByte a a' ↔ a'.toNat < 0x2000 ∧ a.toNat % 0x800 = a'.toNat % 0x800 := by
  constructor
  · rintro (rfl | ⟨-, h', he⟩)
    · exact ⟨h, rfl⟩
    · exact ⟨h', he⟩
  · rintro ⟨h', he⟩
    exact .inr ⟨h, h', he⟩

/-- Above internal RAM every address is a byte of its own. -/
theorem sameByte_iff_of_not_ram {a a' : Word} (h : 0x2000 ≤ a.toNat) : SameByte a a' ↔ a = a' :=
  ⟨fun hs => hs.resolve_right fun ⟨h', _, _⟩ => by omega, .inl⟩

/-- One byte of RAM, its images included, holds `b` in `t`; every other byte is that of `s`, and so is everything but RAM. -/
structure OneByte (s : State) (a : Word) (b : Byte) (t : State) : Prop where
  frame : t = { s with ram := t.ram, cartRam := t.cartRam }
  same : ∀ a', SameByte a a' → peek t a' = some b
  other : ∀ a', ¬ SameByte a a' → peek t a' = peek s a'

theorem oneByte_write_ram {s : State} {a : Word} (hm : s.ram.wf 0x800 = true) (ha : a.toNat < 0x2000) (b : Byte) :
    OneByte s a b { s with ram := s.ram.write (a.toNat % 0x800) b } := by
  refine ⟨rfl, fun a' hs => ?_, fun a' hs => ?_⟩
  · obtain ⟨ha', he⟩ := (sameByte_iff_of_ram ha).1 hs
    rw [peek_ram _ ha', ← he, Memory.read_write_same hm]
  · by_cases ha' : a'.toNat < 0x2000
    · have hne : a'.toNat % 0x800 ≠ a.toNat % 0x800 := fun he => hs ((sameByte_iff_of_ram ha).2 ⟨ha', he.symm⟩)
      rw [peek_ram _ ha', peek_ram s ha', Memory.read_write_other hm hne]
    · exact peek_setRam s _ (by omega)

theorem oneByte_write_cart {s : State} {a : Word} (hm : s.cartRam.wf 0x2000 = true) (h0 : 0x6000 ≤ a.toNat) (h1 : a.toNat < 0x8000)
    (b : Byte) : OneByte s a b { s with cartRam := s.cartRam.write (a.toNat - 0x6000) b } := by
  refine ⟨rfl, fun a' hs => ?_, fun a' hs => ?_⟩
  · obtain rfl := (sameByte_iff_of_not_ram (by omega)).1 hs
    rw [peek_cart _ h0 h1, Memory.read_write_same hm]
  · by_cases ha' : 0x6000 ≤ a'.toNat ∧ a'.toNat < 0x8000
    · obtain ⟨h0', h1'⟩ := ha'
      have hne : a.toNat ≠ a'.toNat := fun he => hs (.inl (BitVec.eq_of_toNat_eq he))
      rw [peek_cart _ h0' h1', peek_cart s h0' h1', Memory.read_write_other hm (by omega)]
    · exact peek_setCartRam s _ ha'

/-- A write to RAM completes and changes one byte. -/
theorem writeByte_isRam {s : State} {a : Word} (hm : MemoriesOk s) (ha : IsRam a) (b : Byte) :
    ∃ t, writeByte a b s = .ok () t ∧ OneByte s a b t := by
  obtain ⟨hram, hcart, -⟩ := hm
  rcases ha with h | ⟨h0, h1⟩
  · exact ⟨_, writeByte_ram b s h, oneByte_write_ram hram h b⟩
  · exact ⟨_, writeByte_cart b s h0 h1, oneByte_write_cart hcart h0 h1 b⟩

/-! ## Stores -/

/-- Settles O19: the store's one write, seen from the state before PC moved. -/
theorem storesChangeOneByte : Obligations.StoresChangeOneByte := by
  intro i r m len base s hf hm ha
  obtain ⟨u, hw, hframe, hsame, hother⟩ := writeByte_isRam (s := s.advance len) hm ha (s.getReg r)
  refine ⟨u.addCycles base, ?_, ?_, hsame, hother⟩
  · rw [exec_of_storeForm hf, storing_ok hw]
  · rw [hframe]
    rfl

/-! ## Read-modify-write instructions -/

theorem bit7_eq_decide (v : Byte) : v.getLsbD 7 = decide (128 ≤ v.toNat) := by revert v; decide

theorem bit0_eq_decide (v : Byte) : v.getLsbD 0 = decide (v.toNat % 2 = 1) := by revert v; decide

theorem setNZ_eq_nzOf (p : Flags) (v : Byte) : p.setNZ v = nzOf p v := by
  simp only [Flags.setNZ, nzOf, bit7_eq_decide, beq_eq_decide]

/-- The byte each computation of Machine/Flags.lean gives is the rule's formula (42_shift_incdec.md R261 to R266). -/
theorem rmw_result (op : RmwOp) (p : Flags) (v : Byte) : (op.effect p v).1 = BitVec.ofNat 8 (op.value p.c v.toNat) := by
  cases op <;> simp only [RmwOp.effect, RmwOp.value, Flags.asl, Flags.lsr, Flags.rol, Flags.ror, Flags.inc, Flags.dec] <;>
    generalize p.c = c <;> revert c v <;> decide

/-- The flags each computation gives: N and Z of its result, and the rule's carry. -/
theorem rmw_flags (op : RmwOp) (p : Flags) (v : Byte) :
    (op.effect p v).2 = { nzOf p (op.effect p v).1 with c := op.carry p.c v.toNat } := by
  cases op <;> simp only [RmwOp.effect, RmwOp.carry, Flags.asl, Flags.lsr, Flags.rol, Flags.ror, Flags.inc, Flags.dec, setNZ_eq_nzOf,
    bit7_eq_decide, bit0_eq_decide] <;> rfl

/-- Settles O21: the byte is seen before it is read, and the one write puts the result there. -/
theorem readModifyWriteChangesOneByte : Obligations.ReadModifyWriteChangesOneByte := by
  intro i op m len base s hf hm ha
  obtain ⟨v, hv⟩ := ha.peek_isSome (s.advance len)
  obtain ⟨u, hw, hframe, hsame, hother⟩ := writeByte_isRam (s := s.advance len) hm ha (op.effect s.cpu.p v).1
  refine ⟨v, (u.setFlags (op.effect s.cpu.p v).2).addCycles base, hv, ?_, ?_, ?_, hother⟩
  · rw [exec_of_rmwForm hf, modifying_ok (readByte_of_peek hv) hw]
    rfl
  · rw [← rmw_result, ← rmw_flags, hframe]
    rfl
  · rw [← rmw_result]
    exact hsame

end Sys2Proof.Machine
end

section
/-! What can stop a step: nothing refuses, and every fault is an illegal opcode at PC or an access to the unlisted range
(60_exceptions.md R701 to R704; 20_memory.md R94). -/

namespace Sys2Proof.Machine

/-! ## Faults of one-byte accesses -/

/-- The fault of an access to $4018 to $5FFF under `UNLISTED_IO = fault`, for a machine of these parameters. -/
def UnlistedFault (p : Params) (f : Fault) : Prop :=
  ∃ a, f = .unmappedAddress .cpu a ∧ 0x4018 ≤ a ∧ a ≤ 0x5FFF ∧ p.unlistedIo = .fault

theorem unlistedFault_of_not_mapped {s : State} {a : Word} (h : ¬ Mapped s a) : UnlistedFault s.params (.unmappedAddress .cpu a.toNat) := by
  simp only [Mapped, not_or, Nat.not_lt, Nat.not_le] at h
  obtain ⟨hz, h0, h1⟩ := h
  refine ⟨a.toNat, rfl, h0, by omega, ?_⟩
  cases hu : s.params.unlistedIo with
  | fault => rfl
  | zero => exact absurd hu hz

theorem readByte_fault {a : Word} {s : State} {f : Fault} (h : readByte a s = .fault f) : UnlistedFault s.params f := by
  by_cases hm : Mapped s a
  · obtain ⟨v, t, ht⟩ := (readByte_ok_iff_mapped a s).2 hm
    simp [ht] at h
  · rw [readByte_of_not_mapped hm] at h
    obtain rfl := Access.fault.inj h
    exact unlistedFault_of_not_mapped hm

theorem oamCopy_fault {p : Byte} {n i : Nat} {s : State} {f : Fault} (h : oamCopy p i n s = .fault f) : UnlistedFault s.params f := by
  induction n generalizing i s with
  | zero => simp [oamCopy] at h
  | succ n ih =>
    simp only [oamCopy] at h
    split at h
    · rename_i hr
      obtain rfl := Access.fault.inj h
      exact readByte_fault hr
    · rename_i b t hr
      exact (kept_readByte hr).params ▸ ih (s := t.withPpu (t.ppu.writeOam b)) h

/-- Of the I/O registers the DMA's alone can fault, through one of its reads. -/
theorem ioWrite_fault {i : Nat} {b : Byte} {s : State} {f : Fault} (h : ioWrite i b s = .fault f) : UnlistedFault s.params f := by
  unfold ioWrite at h
  split at h
  · unfold oamDma at h
    split at h
    · rename_i hc
      obtain rfl := Access.fault.inj h
      exact oamCopy_fault hc
    · simp at h
  · split at h <;> simp at h

theorem writeByte_fault {a : Word} {b : Byte} {s : State} {f : Fault} (h : writeByte a b s = .fault f) : UnlistedFault s.params f := by
  by_cases hm : Mapped s a
  · unfold writeByte at h
    rcases cpuRange_cases a with h1 | ⟨h0, h1⟩ | ⟨h0, h1⟩ | ⟨h0, h1⟩ | ⟨h0, h1⟩ | h1
    · simp [(cpuTargets_ram s _ h1).2] at h
    · simp [(cpuTargets_ppu s _ h0 h1).2] at h
    · rw [(cpuTargets_io s _ h0 h1).2] at h
      exact ioWrite_fault h
    · have hu : s.params.unlistedIo = .zero := hm.resolve_right (by omega)
      simp [(cpuTargets_unlisted s _ h0 h1).2, hu] at h
    · simp [(cpuTargets_cart s _ h0 h1).2] at h
    · simp [(cpuTargets_prg s _ h1 a.isLt).2] at h
  · rw [writeByte_of_not_mapped b hm] at h
    obtain rfl := Access.fault.inj h
    exact unlistedFault_of_not_mapped hm

/-! ## How an instruction ends -/

/-- A result that is no refusal, and whose fault, if it is one, is among those of `P`. -/
inductive Ends (P : Fault → Prop) : Result → Prop where
  | next (t : State) : Ends P (.next t)
  | fault {f : Fault} (h : P f) : Ends P (.fault f)

theorem Ends.mono {P Q : Fault → Prop} {r : Result} (h : Ends P r) (hpq : ∀ f, P f → Q f) : Ends Q r := by
  cases h with
  | next t => exact .next t
  | fault hf => exact .fault (hpq _ hf)

theorem reading_ends (src : Source) (len base : Nat) (f : Byte → State → State) (s : State) :
    Ends (UnlistedFault s.params) (reading src len base f s) := by
  unfold reading
  split
  · rename_i e he
    cases src with
    | imm v => simp [fetchSource] at he
    | mem m => exact .fault (readByte_fault (s := s.advance len) he)
  · exact .next _

theorem storing_ends (m : Mode) (r : Reg8) (len base : Nat) (s : State) : Ends (UnlistedFault s.params) (storing m r len base s) := by
  unfold storing
  split
  · rename_i e he
    exact .fault (writeByte_fault (s := s.advance len) he)
  · exact .next _

theorem modifying_ends (m : Mode) (len base : Nat) (f : Flags → Byte → Byte × Flags) (s : State) :
    Ends (UnlistedFault s.params) (modifying (.mem m) len base f s) := by
  unfold modifying
  dsimp only
  split
  · rename_i e he
    exact .fault (readByte_fault (s := s.advance len) he)
  · rename_i v t hr
    split
    · rename_i e he
      exact .fault ((kept_readByte (s := s.advance len) hr).params ▸ writeByte_fault he)
    · exact .next _

theorem branching_ends (P : Fault → Prop) (cond : Bool) (off : Int) (s : State) : Ends P (branching cond off s) := by
  unfold branching
  dsimp only
  split <;> exact .next _

theorem jumpIndirect_ends (ptr : Word) (s : State) : Ends (UnlistedFault s.params) (jumpIndirect ptr s) := by
  unfold jumpIndirect
  split
  · rename_i e he
    exact .fault (readByte_fault he)
  · rename_i lo t hlo
    split
    · rename_i e he
      exact .fault ((kept_readByte hlo).params ▸ readByte_fault he)
    · exact .next _

/-- Every instruction has a meaning, and only its operands' addresses can stop it. -/
theorem exec_ends (i : Instr) (s : State) : Ends (UnlistedFault s.params) (exec i s) := by
  cases shape i with
  | read op src len base hf _ _ => exact exec_of_readForm hf s ▸ reading_ends src len base _ s
  | store r m len base hf _ => exact exec_of_storeForm hf s ▸ storing_ends m r len base s
  | rmw op m len base hf _ _ => exact exec_of_rmwForm hf s ▸ modifying_ends m len base _ s
  | branch cond off hf _ _ => exact exec_of_branchForm hf s ▸ branching_ends _ _ off s
  | implied base f hf _ _ => exact exec_of_impliedForm hf s ▸ .next _
  | jump w hw => exact hw ▸ .next _
  | jumpIndirect ptr hp => exact hp ▸ jumpIndirect_ends ptr (s.advance 3)
  | call w hw => exact hw ▸ .next _

/-! ## How a fetch ends -/

theorem fetchBytes_length {n : Nat} {a : Word} {s t : State} {bs : List Byte} (h : fetchBytes n a s = .ok bs t) : bs.length = n := by
  induction n generalizing a s bs with
  | zero => obtain ⟨rfl, -⟩ := Access.ok.inj h; rfl
  | succ n ih =>
    simp only [fetchBytes] at h
    split at h
    · simp at h
    · split at h
      · simp at h
      · rename_i h2
        obtain ⟨rfl, rfl⟩ := Access.ok.inj h
        rw [List.length_cons, ih h2]

theorem fetchBytes_fault {n : Nat} {a : Word} {s : State} {f : Fault} (h : fetchBytes n a s = .fault f) : UnlistedFault s.params f := by
  induction n generalizing a s with
  | zero => simp [fetchBytes] at h
  | succ n ih =>
    simp only [fetchBytes] at h
    split at h
    · rename_i h1
      obtain rfl := Access.fault.inj h
      exact readByte_fault h1
    · rename_i b t h1
      split at h
      · rename_i h2
        obtain rfl := Access.fault.inj h
        exact (kept_readByte h1).params ▸ ih h2
      · simp at h

/-- A legal opcode with exactly its operand bytes decodes. -/
theorem decode_of_opForm {op : Byte} {form : OpForm} {bs : List Byte} (h : opForm op = some form) (hlen : bs.length = form.length - 1) :
    ∃ i, decode (op :: bs) = .ok (i, []) := by
  cases form with
  | noOperand i =>
    obtain rfl := List.length_eq_zero_iff.1 hlen
    exact ⟨i, by simp [decode, h]⟩
  | withByte f =>
    obtain ⟨b, rfl⟩ := List.length_eq_one_iff.1 hlen
    exact ⟨f b, by simp [decode, h]⟩
  | withOffset f =>
    obtain ⟨b, rfl⟩ := List.length_eq_one_iff.1 hlen
    exact ⟨f (Machine.sext8 b), by simp [decode, h]⟩
  | withWord f =>
    obtain ⟨b, c, rfl⟩ := List.length_eq_two.1 hlen
    exact ⟨f (Machine.wordOf b c), by simp [decode, h]⟩

/-- The empty cells of the opcode matrix are listed (30_encoding.md R161, R167). -/
theorem mem_illegalOpcodes_of_opForm {op : Byte} (h : opForm op = none) : op ∈ illegalOpcodes := by
  have hall : ∀ b : Byte, (opForm b).isSome = true ∨ b ∈ illegalOpcodes := by decide
  simpa [h] using hall op

/-- The faults of a step of the CPU: an illegal opcode at this PC, or an unlisted access. -/
def CpuFault (pc : Word) (p : Params) (f : Fault) : Prop :=
  (∃ op, f = .illegalOpcode pc op ∧ op ∈ illegalOpcodes) ∨ UnlistedFault p f

theorem fetch_fault {s : State} {f : Fault} (h : fetch s = .fault f) : CpuFault s.cpu.pc s.params f := by
  unfold fetch at h
  split at h
  · rename_i h1
    obtain rfl := Access.fault.inj h
    exact .inr (readByte_fault h1)
  · rename_i op t h1
    split at h
    · rename_i hop
      obtain rfl := Access.fault.inj h
      exact .inl ⟨op, rfl, mem_illegalOpcodes_of_opForm hop⟩
    · rename_i form hop
      split at h
      · rename_i h2
        obtain rfl := Access.fault.inj h
        exact .inr ((kept_readByte h1).params ▸ fetchBytes_fault h2)
      · rename_i bs u h2
        obtain ⟨i, hi⟩ := decode_of_opForm hop (fetchBytes_length h2)
        simp [hi] at h

/-! ## How a step ends -/

theorem runInstruction_ends (s : State) : Ends (CpuFault s.cpu.pc s.params) (runInstruction s) := by
  unfold runInstruction
  split
  · rename_i hf
    exact .fault (fetch_fault hf)
  · rename_i i t hf
    exact (exec_ends i t).mono fun f h => .inr ((kept_fetch hf).params ▸ h)

theorem execute_ends (s : State) : Ends (CpuFault s.cpu.pc s.params) (execute s) := by
  have hrun := runInstruction_ends (endDeferral s)
  unfold execute
  dsimp only
  split
  · split
    · exact .next _
    · split
      · exact .next _
      · exact hrun
  · split
    · exact .next _
    · split
      · exact .next _
      · exact hrun

theorem boundary_ends (s : State) : Ends (CpuFault s.cpu.pc s.params) (boundary s) := by
  unfold boundary
  split
  · exact execute_ends s
  · rename_i rest _
    exact execute_ends { s with hostQueue := rest }
  · exact .next _
  · exact .next _
  · exact .next _

/-- Of the devices the DMC's reader alone can fault. -/
theorem apuCycle_fault {s : State} {f : Fault} (h : apuCycle s = .fault f) : UnlistedFault s.params f := by
  unfold apuCycle at h
  split at h
  · rename_i hd
    obtain rfl := Access.fault.inj h
    unfold dmcReader at hd
    split at hd
    · split at hd
      · rename_i hr
        obtain rfl := Access.fault.inj hd
        have hread := readByte_fault hr
        exact hread
      · simp at hd
    · simp at hd
  · simp at h

theorem fanOut_ends (s : State) : Ends (UnlistedFault s.params) (fanOut s) := by
  unfold fanOut
  split
  · rename_i ha
    exact .fault ((kept_mapperCycle s).params ▸ apuCycle_fault ha)
  · exact .next _

theorem step_of_latched {s : State} {f : Fault} (h : s.fault = some f) : step s = .fault f := by
  rw [step, h]

theorem step_ends {s : State} (h : s.fault = none) : Ends (CpuFault s.cpu.pc s.params) (step s) := by
  rw [step, h]
  dsimp only
  split
  · exact boundary_ends s
  · exact (fanOut_ends s).mono fun _ => .inr

/-- Settles O37: how a step ends without a latched fault, and the latch otherwise. -/
theorem faultsHaveTwoCauses : Obligations.FaultsHaveTwoCauses := by
  refine ⟨fun s r hr => ?_, fun s f => step_of_latched, fun s f hnone hf => ?_⟩
  · cases hlatch : s.fault with
    | some f => simp [step_of_latched hlatch] at hr
    | none =>
      have hends := step_ends hlatch
      rw [hr] at hends
      cases hends
  · have hends := step_ends hnone
    rw [hf] at hends
    cases hends with
    | fault h => exact h

end Sys2Proof.Machine
end

section
/-! The nametables and the palette behind the PPU's addresses (20_memory.md R120, R121, R122). -/

namespace Sys2Proof.Machine

/-! ## The nametable slots of the PPU map -/

theorem covering_nametable (s : State) {slot k : Nat} (hs : slot < 4) (hk : k < 0x400) :
    AddressSpace.covering (ppuSpace s) (0x2000 + slot * 0x400 + k) = some (ntSlot s (0x2000 + slot * 0x400) slot 0x400) := by
  unfold ppuSpace chrSlot ntSlot
  rcases (by omega : slot = 0 ∨ slot = 1 ∨ slot = 2 ∨ slot = 3) with rfl | rfl | rfl | rfl <;>
    simp (disch := omega) only [covering_above, covering_below, Option.getD_none, Option.getD_some]

/-- The mirror's last slot ends where the palette begins. -/
theorem covering_nametableMirror (s : State) {slot k : Nat} (hs : slot < 4) (hk : k < 0x400) (h : slot * 0x400 + k < 0xF00) :
    AddressSpace.covering (ppuSpace s) (0x3000 + slot * 0x400 + k) =
      some (ntSlot s (0x3000 + slot * 0x400) slot (if slot = 3 then 0x300 else 0x400)) := by
  unfold ppuSpace chrSlot ntSlot
  rcases (by omega : slot = 0 ∨ slot = 1 ∨ slot = 2 ∨ slot = 3) with rfl | rfl | rfl | rfl <;>
    simp (disch := omega) only [covering_above, covering_below, Option.getD_none, Option.getD_some] <;> rfl

/-- The byte of the nametables behind offset `k` of a slot. -/
def ntIndex (s : State) (slot k : Nat) : Nat := physTable s.ppu.mirroring s.params.oneScreenTable slot * 0x400 + k

theorem ppuTargets_nametable (s : State) {slot k : Nat} (hs : slot < 4) (hk : k < 0x400) :
    AddressSpace.readTarget (ppuSpace s) (0x2000 + slot * 0x400 + k) = some (.cell .nametable (ntIndex s slot k)) ∧
    AddressSpace.writeTarget (ppuSpace s) (0x2000 + slot * 0x400 + k) = some (.cell .nametable (ntIndex s slot k)) := by
  have hc := covering_nametable s hs hk
  have e : 0x2000 + slot * 0x400 + k - (0x2000 + slot * 0x400) = k := by omega
  have hsize : 0x2000 + slot * 0x400 + k - (0x2000 + slot * 0x400) < 0x400 := by omega
  rw [readTarget_of_covering hc hsize, writeTarget_of_covering hc hsize, e]
  exact ⟨rfl, rfl⟩

theorem ppuTargets_nametableMirror (s : State) {slot k : Nat} (hs : slot < 4) (hk : k < 0x400) (h : slot * 0x400 + k < 0xF00) :
    AddressSpace.readTarget (ppuSpace s) (0x3000 + slot * 0x400 + k) = some (.cell .nametable (ntIndex s slot k)) ∧
    AddressSpace.writeTarget (ppuSpace s) (0x3000 + slot * 0x400 + k) = some (.cell .nametable (ntIndex s slot k)) := by
  have hc := covering_nametableMirror s hs hk h
  have e : 0x3000 + slot * 0x400 + k - (0x3000 + slot * 0x400) = k := by omega
  have hsize : 0x3000 + slot * 0x400 + k - (0x3000 + slot * 0x400) < (if slot = 3 then 0x300 else 0x400) := by
    split <;> omega
  rw [readTarget_of_covering hc hsize, writeTarget_of_covering hc hsize, e]
  exact ⟨rfl, rfl⟩

theorem ppuRead_nametable (s : State) {slot k : Nat} (hs : slot < 4) (hk : k < 0x400) :
    ppuRead s (0x2000 + slot * 0x400 + k) = s.ppu.nt.read (ntIndex s slot k) := by
  rw [ppuRead, Nat.mod_eq_of_lt (by omega), (ppuTargets_nametable s hs hk).1]
  rfl

theorem ppuWrite_nametable (s : State) (b : Byte) {slot k : Nat} (hs : slot < 4) (hk : k < 0x400) :
    ppuWrite (0x2000 + slot * 0x400 + k) b s = s.setCell .nametable (ntIndex s slot k) b := by
  rw [ppuWrite, Nat.mod_eq_of_lt (by omega), (ppuTargets_nametable s hs hk).2]

/-- $3000 to $3EFF has the targets of $2000 to $2EFF. -/
theorem ppuTargets_mirror_eq (s : State) {a : Nat} (h0 : 0x3000 ≤ a) (h : a < 0x3F00) :
    AddressSpace.readTarget (ppuSpace s) a = AddressSpace.readTarget (ppuSpace s) (a - 0x1000) ∧
    AddressSpace.writeTarget (ppuSpace s) a = AddressSpace.writeTarget (ppuSpace s) (a - 0x1000) := by
  obtain ⟨slot, k, hs, hk, rfl⟩ : ∃ slot k, slot < 4 ∧ k < 0x400 ∧ a = 0x3000 + slot * 0x400 + k :=
    ⟨(a - 0x3000) / 0x400, (a - 0x3000) % 0x400, by omega, by omega, by omega⟩
  have e : 0x3000 + slot * 0x400 + k - 0x1000 = 0x2000 + slot * 0x400 + k := by omega
  obtain ⟨hr, hw⟩ := ppuTargets_nametableMirror s hs hk (by omega)
  obtain ⟨hr', hw'⟩ := ppuTargets_nametable s hs hk
  rw [e, hr, hw, hr', hw']
  exact ⟨rfl, rfl⟩

/-! ## The palette -/

theorem ppuTargets_palette (s : State) {i : Nat} (h : i < 0x100) :
    AddressSpace.readTarget (ppuSpace s) (0x3F00 + i) = some (.port .palette (i % 0x20)) ∧
    AddressSpace.writeTarget (ppuSpace s) (0x3F00 + i) = some (.port .palette (i % 0x20)) := by
  have hc : AddressSpace.covering (ppuSpace s) (0x3F00 + i) = some (0x3F00, .mirror 0x100 0 (.port .palette 0x20)) := by
    unfold ppuSpace chrSlot ntSlot
    simp (disch := omega) only [covering_above, covering_nil, Option.getD_none, Option.getD_some]
  have hsize : 0x3F00 + i - 0x3F00 < 0x100 := by omega
  rw [readTarget_of_covering hc hsize, writeTarget_of_covering hc hsize, Nat.add_sub_cancel_left]
  exact ⟨rfl, rfl⟩

theorem ppuRead_palette (s : State) {i : Nat} (h : i < 0x100) :
    ppuRead s (0x3F00 + i) = s.ppu.palette.read (paletteIndex i) := by
  rw [ppuRead, Nat.mod_eq_of_lt (by omega), (ppuTargets_palette s h).1]
  simp only [paletteIndex, Nat.mod_mod]

theorem ppuWrite_palette (s : State) (b : Byte) {i : Nat} (h : i < 0x100) :
    ppuWrite (0x3F00 + i) b s = s.withPpu { s.ppu with palette := s.ppu.palette.write (paletteIndex i) b } := by
  rw [ppuWrite, Nat.mod_eq_of_lt (by omega), (ppuTargets_palette s h).2]
  simp only [paletteIndex, Nat.mod_mod]

/-! ## What a write makes every other address read -/

theorem physTable_horizontal (t : Fin 4) {slot : Nat} (h : slot < 4) : physTable .horizontal t slot = slot / 2 := by
  show (if slot < 2 then 0 else 1) = slot / 2
  split <;> omega

/-- Two nametable bytes are one exactly when the offsets and the physical tables agree. -/
theorem ntIndex_inj {s : State} {slot slot' k k' : Nat} (hk : k < 0x400) (hk' : k' < 0x400) :
    ntIndex s slot' k' = ntIndex s slot k ↔ k = k' ∧
      physTable s.ppu.mirroring s.params.oneScreenTable slot = physTable s.ppu.mirroring s.params.oneScreenTable slot' := by
  unfold ntIndex
  omega

theorem setCell_nametable_nt (s : State) (i : Nat) (b : Byte) : (s.setCell .nametable i b).ppu.nt = s.ppu.nt.write i b := rfl

theorem ntIndex_setCell (s : State) (i : Nat) (b : Byte) : ntIndex (s.setCell .nametable i b) = ntIndex s := rfl

/-- What a write through one nametable address makes another read. -/
theorem ppuRead_ppuWrite_nametable {s : State} (hm : MemoriesOk s) (b : Byte) {slot slot' k k' : Nat} (hs : slot < 4) (hs' : slot' < 4)
    (hk : k < 0x400) (hk' : k' < 0x400) :
    ppuRead (ppuWrite (0x2000 + slot * 0x400 + k) b s) (0x2000 + slot' * 0x400 + k') =
      if ntIndex s slot' k' = ntIndex s slot k then b else ppuRead s (0x2000 + slot' * 0x400 + k') := by
  obtain ⟨-, -, -, -, hnt, -⟩ := hm
  rw [ppuWrite_nametable s b hs hk, ppuRead_nametable _ hs' hk', ppuRead_nametable s hs' hk', setCell_nametable_nt, ntIndex_setCell,
    Memory.read_write_from hnt]

/-- What a write through one palette address makes another read. -/
theorem ppuRead_ppuWrite_palette {s : State} (hm : MemoriesOk s) (b : Byte) {i j : Nat} (hi : i < 0x100) (hj : j < 0x100) :
    ppuRead (ppuWrite (0x3F00 + i) b s) (0x3F00 + j) =
      if paletteIndex i = paletteIndex j then b else ppuRead s (0x3F00 + j) := by
  obtain ⟨-, -, -, -, -, hpal, -⟩ := hm
  rw [ppuWrite_palette s b hi, ppuRead_palette _ hj, ppuRead_palette s hj, State.withPpu_ppu, Memory.read_write_from hpal]
  exact if_congr eq_comm rfl rfl

theorem ppuRead_mirror (s : State) {a : Nat} (h0 : 0x3000 ≤ a) (h : a < 0x3F00) : ppuRead s a = ppuRead s (a - 0x1000) := by
  have e : a % 0x4000 = a := by omega
  have e' : (a - 0x1000) % 0x4000 = a - 0x1000 := by omega
  rw [ppuRead, ppuRead, e, e', (ppuTargets_mirror_eq s h0 h).1]

theorem ppuWrite_mirror (s : State) (b : Byte) {a : Nat} (h0 : 0x3000 ≤ a) (h : a < 0x3F00) :
    ppuWrite a b s = ppuWrite (a - 0x1000) b s := by
  have e : a % 0x4000 = a := by omega
  have e' : (a - 0x1000) % 0x4000 = a - 0x1000 := by omega
  rw [ppuWrite, ppuWrite, e, e', (ppuTargets_mirror_eq s h0 h).2]

/-- Settles O49: the statement's table of slots is `physTable`, its palette entry is `paletteIndex`. -/
theorem nametableAndPaletteAliases : Obligations.NametableAndPaletteAliases := by
  refine ⟨fun s b slot slot' k k' hm hs hs' hk hk' => ?_, fun s b a h0 h => ⟨ppuRead_mirror s h0 h, ppuWrite_mirror s b h0 h⟩,
    fun s b i j hm hi hj => ppuRead_ppuWrite_palette hm b hi hj⟩
  rw [ppuRead_ppuWrite_nametable hm b hs hs' hk hk']
  refine if_congr ((ntIndex_inj hk hk').trans ?_) rfl rfl
  cases s.ppu.mirroring with
  | horizontal => rw [physTable_horizontal _ hs, physTable_horizontal _ hs']
  | vertical => exact Iff.rfl
  | oneScreen => exact Iff.rfl
  | fourScreen => exact Iff.rfl

end Sys2Proof.Machine
end

section
/-! What $8000 to $FFFF reads under each bank-switching scheme (52_mappers.md R576, R580, R585, R592, R610; 20_memory.md R96). -/

namespace Sys2Proof.Machine

/-- The 8KB window of an address at $8000 or above. -/
theorem prgWindow_cases {a : Word} (h : 0x8000 ≤ a.toNat) :
    (a.toNat < 0xA000 ∧ (a.toNat - 0x8000) / 0x2000 = 0) ∨
    (¬ a.toNat < 0xA000 ∧ a.toNat < 0xC000 ∧ (a.toNat - 0x8000) / 0x2000 = 1) ∨
    (¬ a.toNat < 0xA000 ∧ ¬ a.toNat < 0xC000 ∧ a.toNat < 0xE000 ∧ (a.toNat - 0x8000) / 0x2000 = 2) ∨
    (¬ a.toNat < 0xA000 ∧ ¬ a.toNat < 0xC000 ∧ ¬ a.toNat < 0xE000 ∧ (a.toNat - 0x8000) / 0x2000 = 3) := by
  have := a.isLt
  omega

/-- The two halves of a 16KB page make one window of 16KB (52_mappers.md R576). -/
theorem prg16Unit_address (n k : Nat) {a : Word} (h : 0x8000 ≤ a.toNat) :
    prg16Unit n k ((a.toNat - 0x8000) / 0x2000 % 2) * 0x2000 + a.toNat % 0x2000 = k % n * 0x4000 + a.toNat % 0x4000 := by
  unfold prg16Unit
  omega

theorem readByte_prg_fixed {s : State} {a : Word} (h : 0x8000 ≤ a.toNat) (hm : s.mapper = .fixed) :
    readByte a s = .ok (s.rom.prg.read ((if a.toNat < 0xC000 then 0 else 1) % s.rom.prgPages * 0x4000 + a.toNat % 0x4000)) s := by
  have hk : (a.toNat - 0x8000) / 0x2000 / 2 = if a.toNat < 0xC000 then 0 else 1 := by
    have := a.isLt
    split <;> omega
  rw [readByte_prg s h, prgUnit, hm]
  dsimp only
  rw [prg16Unit_address _ _ h, hk]

theorem readByte_prg_bank16 {s : State} {a : Word} {bank : Byte} (h : 0x8000 ≤ a.toNat) (hm : s.mapper = .bank16 bank) :
    readByte a s = .ok (s.rom.prg.read
      ((if a.toNat < 0xC000 then bank.toNat else s.rom.prgPages - 1) % s.rom.prgPages * 0x4000 + a.toNat % 0x4000)) s := by
  have hk : (a.toNat - 0x8000) / 0x2000 < 2 ↔ a.toNat < 0xC000 := by omega
  rw [readByte_prg s h, prgUnit, hm]
  dsimp only
  rw [prg16Unit_address _ _ h, if_congr hk rfl rfl]

/-- A window's unit is a wrapped one in the two schemes of 8KB units. -/
theorem readByte_prg_unit8 {s : State} {a : Word} {k : Nat} (h : 0x8000 ≤ a.toNat)
    (hu : prgUnit s ((a.toNat - 0x8000) / 0x2000) = prg8Unit s.rom.prgPages k) :
    readByte a s = .ok (s.rom.prg.read (k % (2 * s.rom.prgPages) * 0x2000 + a.toNat % 0x2000)) s := by
  rw [readByte_prg s h, hu, prg8Unit]

/-- Settles O57: each scheme's unit, window by window. -/
theorem prgWindows : Obligations.PrgWindows := by
  intro s a h _
  refine ⟨readByte_prg_fixed h, fun bank => readByte_prg_bank16 h, fun r hm => readByte_prg_unit8 h ?_,
    fun d hm => readByte_prg_unit8 h ?_⟩ <;>
  · rw [prgUnit, hm]
    rcases prgWindow_cases h with ⟨h1, hw⟩ | ⟨h1, h2, hw⟩ | ⟨h1, h2, h3, hw⟩ | ⟨h1, h2, h3, hw⟩ <;> rw [hw]
    · rw [if_pos h1]; rfl
    · rw [if_neg h1, if_pos h2]; rfl
    · rw [if_neg h1, if_neg h2, if_pos h3]; rfl
    · rw [if_neg h1, if_neg h2, if_neg h3]; rfl

end Sys2Proof.Machine
end

section
/-! The bank-switching schemes' register writes and the scanline counter (52_mappers.md R570, R573, R581, R586, R590, R595, R597, R611,
R612; 20_memory.md R87, R96). -/

namespace Sys2Proof.Machine

/-! ## The scanline counter -/

theorem clock_irqCounter (r : EightReg) :
    r.clock.irqCounter = if r.irqCounter = 0 ∨ r.irqReload = true then r.irqLatch else r.irqCounter - 1 := by
  unfold EightReg.clock
  dsimp only
  split <;> split <;> rfl

/-- No clock leaves a reload pending. -/
theorem clock_irqReload (r : EightReg) : r.clock.irqReload = false := by
  unfold EightReg.clock
  dsimp only
  split
  · split <;> rfl
  · rename_i h
    have hr : r.irqReload = false := by simpa using fun hr => h (.inr hr)
    split <;> exact hr

theorem clock_irqEnabled (r : EightReg) : r.clock.irqEnabled = r.irqEnabled := by
  unfold EightReg.clock
  dsimp only
  split <;> split <;> rfl

/-- A clock raises the line of an enabled counter that stands at 0 after it, and never lowers it. -/
theorem clock_irqLine (r : EightReg) :
    r.clock.irqLine = (r.irqLine || (decide (r.clock.irqCounter = 0) && r.irqEnabled)) := by
  unfold EightReg.clock
  dsimp only
  split <;> split <;> simp_all

/-- A counter with its line enabled that counts down from a reload and stands at `c`; the line is up at 0. -/
structure Counting (r : EightReg) (c : Nat) : Prop where
  counter : r.irqCounter.toNat = c
  reload : r.irqReload = false
  enabled : r.irqEnabled = true
  line : r.irqLine = decide (c = 0)

/-- The first clock after a reload takes the latch. -/
theorem counting_reload {r : EightReg} (he : r.irqEnabled = true) (hr : r.irqReload = true) (hl : r.irqLine = false) :
    Counting r.clock r.irqLatch.toNat := by
  have hc : r.clock.irqCounter = r.irqLatch := by rw [clock_irqCounter, if_pos (.inr hr)]
  refine ⟨congrArg _ hc, clock_irqReload r, (clock_irqEnabled r).trans he, ?_⟩
  rw [clock_irqLine, hc, hl, he, Bool.false_or, Bool.and_true]
  exact decide_eq_decide.2 BitVec.toNat_inj.symm

/-- Every further clock counts down by one. -/
theorem counting_clock {r : EightReg} {c : Nat} (h : Counting r (c + 1)) : Counting r.clock c := by
  have hne : ¬ (r.irqCounter = 0 ∨ r.irqReload = true) := by
    rintro (hz | hr)
    · have hcount := h.counter
      rw [hz] at hcount
      exact absurd hcount (by simp)
    · simp [h.reload] at hr
  have hc : r.clock.irqCounter.toNat = c := by
    have hcount := h.counter
    rw [clock_irqCounter, if_neg hne, BitVec.toNat_sub]
    have := r.irqCounter.isLt
    simp
    omega
  refine ⟨hc, clock_irqReload r, (clock_irqEnabled r).trans h.enabled, ?_⟩
  rw [clock_irqLine, h.line, h.enabled, Bool.and_true, decide_eq_false (Nat.succ_ne_zero c), Bool.false_or]
  exact decide_eq_decide.2 (hc ▸ BitVec.toNat_inj.symm)

theorem counting_iterate {r : EightReg} (he : r.irqEnabled = true) (hr : r.irqReload = true) (hl : r.irqLine = false) {k : Nat}
    (hk : k ≤ r.irqLatch.toNat) : Counting (EightReg.clock^[k + 1] r) (r.irqLatch.toNat - k) := by
  induction k with
  | zero => exact counting_reload he hr hl
  | succ k ih =>
    rw [Function.iterate_succ_apply']
    refine counting_clock ?_
    rw [show r.irqLatch.toNat - (k + 1) + 1 = r.irqLatch.toNat - k by omega]
    exact ih (by omega)

/-- A write of the latch and a write of the reload register. -/
theorem write_latch_reload (r : EightReg) (latch v : Byte) :
    (r.write 0xC000 latch).write 0xC001 v = { r with irqLatch := latch, irqCounter := 0, irqReload := true } := rfl

/-! ## The register an address selects -/

/-- `a & $E001` keeps the 8KB window and the lowest bit. -/
theorem and_E001_toNat (a : Word) : (a &&& 0xE001).toNat = a.toNat / 0x2000 * 0x2000 + a.toNat % 2 := by
  rw [BitVec.toNat_and]
  have hhigh : (a.toNat &&& 0xE001) / 2 ^ 13 = a.toNat / 2 ^ 13 % 2 ^ 3 := by
    rw [Nat.and_div_two_pow, ← Nat.and_two_pow_sub_one_eq_mod]
  have hlow : (a.toNat &&& 0xE001) % 2 ^ 13 = a.toNat % 2 ^ 13 % 2 ^ 1 := by
    rw [Nat.and_mod_two_pow, ← Nat.and_two_pow_sub_one_eq_mod _ 1]
  have := a.isLt
  show a.toNat &&& 0xE001 = _
  omega

/-- `a & $F000` keeps the 4KB page. -/
theorem and_F000_toNat (a : Word) : (a &&& 0xF000).toNat = a.toNat / 0x1000 * 0x1000 := by
  rw [BitVec.toNat_and]
  have hhigh : (a.toNat &&& 0xF000) / 2 ^ 12 = a.toNat / 2 ^ 12 % 2 ^ 4 := by
    rw [Nat.and_div_two_pow, ← Nat.and_two_pow_sub_one_eq_mod]
  have hlow : (a.toNat &&& 0xF000) % 2 ^ 12 = 0 := by
    rw [Nat.and_mod_two_pow]
    exact Nat.and_zero _
  have := a.isLt
  show a.toNat &&& 0xF000 = _
  omega

/-! ## The eight-register scheme's registers -/

/-- A vector with one place set, if the index is one of its places. -/
theorem setIfInBounds_eq_ofFn {α : Type} {n : Nat} (xs : Vector α n) (i : Nat) (x : α) :
    xs.setIfInBounds i x = Vector.ofFn (fun k => if k.val = i then x else xs[k]) := by
  ext k hk
  simp [Vector.getElem_setIfInBounds, eq_comm]

theorem ofFn_if_false {α : Type} {n : Nat} (xs : Vector α n) (x : α) {p : Fin n → Prop} [DecidablePred p] (h : ∀ k, ¬ p k) :
    Vector.ofFn (fun k => if p k then x else xs[k]) = xs := by
  ext k hk
  simp [h]

/-- The 8KB window and the lowest bit of an address at $8000 or above name one of eight registers (52_mappers.md R590). -/
theorem selected_cases {a : Word} (h : 0x8000 ≤ a.toNat) :
    a.toNat / 0x2000 * 0x2000 + a.toNat % 2 = 0x8000 ∨ a.toNat / 0x2000 * 0x2000 + a.toNat % 2 = 0x8001 ∨
    a.toNat / 0x2000 * 0x2000 + a.toNat % 2 = 0xA000 ∨ a.toNat / 0x2000 * 0x2000 + a.toNat % 2 = 0xA001 ∨
    a.toNat / 0x2000 * 0x2000 + a.toNat % 2 = 0xC000 ∨ a.toNat / 0x2000 * 0x2000 + a.toNat % 2 = 0xC001 ∨
    a.toNat / 0x2000 * 0x2000 + a.toNat % 2 = 0xE000 ∨ a.toNat / 0x2000 * 0x2000 + a.toNat % 2 = 0xE001 := by
  have := a.isLt
  omega

/-- A write's effect register by register. -/
theorem eightReg_write_eq (r : EightReg) {a : Word} (v : Byte) (h : 0x8000 ≤ a.toNat) :
    let reg : Nat := a.toNat / 0x2000 * 0x2000 + a.toNat % 2
    r.write a v = {
      bankSelect := if reg = 0x8000 then v else r.bankSelect
      r := Vector.ofFn (fun k => if reg = 0x8001 ∧ k.val = r.bankSelect.toNat % 8 then v else r.r[k])
      mirror := if reg = 0xA000 then v.getLsbD 0 else r.mirror
      ramProtect := if reg = 0xA001 then v else r.ramProtect
      irqLatch := if reg = 0xC000 then v else r.irqLatch
      irqCounter := if reg = 0xC001 then 0 else r.irqCounter
      irqReload := if reg = 0xC001 then true else r.irqReload
      irqEnabled := if reg = 0xE000 then false else if reg = 0xE001 then true else r.irqEnabled
      irqLine := if reg = 0xE000 then false else r.irqLine } := by
  have hsel : r.bankSelect.toNat &&& 7 = r.bankSelect.toNat % 8 := Nat.and_two_pow_sub_one_eq_mod _ 3
  dsimp only
  rw [EightReg.write, and_E001_toNat]
  rcases selected_cases h with e | e | e | e | e | e | e | e <;> rw [e] <;>
    simp [hsel, setIfInBounds_eq_ofFn]

/-- The mirroring register's effect, selected or not: the PPU's mirroring moves unless the image is four-screen (52_mappers.md R573). -/
theorem applyMirrorBit_if (c : Prop) [Decidable c] (bit : Bool) (s : State) :
    (if c then applyMirrorBit bit s else s) = { s with ppu := { s.ppu with
      mirroring := if decide c = true ∧ s.rom.mirroring ≠ .fourScreen then (if bit then .horizontal else .vertical)
        else s.ppu.mirroring } } := by
  by_cases hc : c
  · by_cases hm : s.rom.mirroring = .fourScreen
    · simp [hc, applyMirrorBit, hm]
    · simp [hc, applyMirrorBit, hm, setMirroring]
  · simp [hc]

theorem mapperWrite_eightReg {s : State} {r : EightReg} (a : Word) (v : Byte) (hm : s.mapper = .eightReg r) :
    mapperWrite a v s = if a.toNat / 0x2000 * 0x2000 + a.toNat % 2 = 0xA000
      then applyMirrorBit (v.getLsbD 0) { s with mapper := .eightReg (r.write a v) }
      else { s with mapper := .eightReg (r.write a v) } := by
  rw [mapperWrite, hm]
  exact if_congr (BitVec.toNat_inj.symm.trans (and_E001_toNat a ▸ Iff.rfl)) rfl rfl

/-! ## The dual-variant scheme's registers -/

/-- The number the address bits select among a bank pair's four sub-registers (52_mappers.md R611). -/
theorem dualBank_sub_eq (d : DualBank) (a : Word) :
    d.sub a = if d.variantA then a.toNat % 2 * 2 + a.toNat / 2 % 2 else a.toNat % 4 := by
  have h0 : (a.getLsbD 0).toNat = a.toNat % 2 := (Nat.toNat_testBit a.toNat 0).trans (by rw [Nat.pow_zero, Nat.div_one])
  have h1 : (a.getLsbD 1).toNat = a.toNat / 2 % 2 := Nat.toNat_testBit a.toNat 1
  rw [DualBank.sub, h0, h1]
  split <;> omega

theorem dualBank_sub_lt (d : DualBank) (a : Word) : d.sub a < 4 := by
  rw [dualBank_sub_eq]
  split <;> omega

/-- A nibble of the value written. -/
theorem setWidth4_eq_ofNat (v : Byte) : v.setWidth 4 = BitVec.ofNat 4 (v.toNat % 16) := by
  apply BitVec.eq_of_toNat_eq
  simp

theorem setWidth5_eq_ofNat (v : Byte) : v.setWidth 5 = BitVec.ofNat 5 (v.toNat % 32) := by
  apply BitVec.eq_of_toNat_eq
  simp

/-- The four sub-registers of a pair of banks are the nibbles `2 * bank` on, low and high in turn (52_mappers.md R612). -/
theorem dualBank_writeChr_eq (d : DualBank) (bank : Nat) {sub : Nat} (v : Byte) (h : sub < 4) :
    d.writeChr bank sub v = { d with
      chrLo := Vector.ofFn (fun k => if 2 * k.val + 0 = 2 * bank + sub then v.setWidth 4 else d.chrLo[k])
      chrHi := Vector.ofFn (fun k => if 2 * k.val + 1 = 2 * bank + sub then v.setWidth 4 else d.chrHi[k]) } := by
  rcases (by omega : sub = 0 ∨ sub = 1 ∨ sub = 2 ∨ sub = 3) with rfl | rfl | rfl | rfl <;>
    simp only [DualBank.writeChr, setIfInBounds_eq_ofFn] <;> congr 1
  · exact congrArg _ (funext fun k => if_congr (by omega) rfl rfl)
  · exact (ofFn_if_false _ _ fun k => by omega).symm
  · exact (ofFn_if_false _ _ fun k => by omega).symm
  · exact congrArg _ (funext fun k => if_congr (by omega) rfl rfl)
  · exact congrArg _ (funext fun k => if_congr (by omega) rfl rfl)
  · exact (ofFn_if_false _ _ fun k => by omega).symm
  · exact (ofFn_if_false _ _ fun k => by omega).symm
  · exact congrArg _ (funext fun k => if_congr (by omega) rfl rfl)

/-- A write's effect register by register. -/
theorem dualBank_write_eq (d : DualBank) {a : Word} (v : Byte) (h : 0x8000 ≤ a.toNat) :
    let page : Nat := a.toNat / 0x1000
    let chr (high : Nat) (k : Nat) (old : BitVec 4) : BitVec 4 :=
      if 0xB ≤ page ∧ page ≤ 0xE ∧ 2 * k + high = 4 * (page - 0xB) + d.sub a then v.setWidth 4 else old
    d.write a v = {
      variantA := d.variantA
      prg0 := if page = 8 then v.setWidth 5 else d.prg0
      prg1 := if page = 0xA then v.setWidth 5 else d.prg1
      mirror := if page = 9 then v.getLsbD 0 else d.mirror
      chrLo := Vector.ofFn (fun k => chr 0 k.val d.chrLo[k])
      chrHi := Vector.ofFn (fun k => chr 1 k.val d.chrHi[k]) } := by
  have := a.isLt
  dsimp only
  rw [DualBank.write, and_F000_toNat]
  rcases (by omega : a.toNat / 0x1000 = 8 ∨ a.toNat / 0x1000 = 9 ∨ a.toNat / 0x1000 = 0xA ∨ a.toNat / 0x1000 = 0xB ∨
    a.toNat / 0x1000 = 0xC ∨ a.toNat / 0x1000 = 0xD ∨ a.toNat / 0x1000 = 0xE ∨ a.toNat / 0x1000 = 0xF) with
    e | e | e | e | e | e | e | e <;> rw [e] <;>
    simp [dualBank_writeChr_eq _ _ _ (dualBank_sub_lt d a)]

theorem mapperWrite_dual {s : State} {d : DualBank} (a : Word) (v : Byte) (hm : s.mapper = .dual d) :
    mapperWrite a v s = if a.toNat / 0x1000 = 9
      then applyMirrorBit (v.getLsbD 0) { s with mapper := .dual (d.write a v) }
      else { s with mapper := .dual (d.write a v) } := by
  have hpage : (a &&& 0xF000) = 0x9000 ↔ a.toNat / 0x1000 = 9 := by
    rw [← BitVec.toNat_inj, and_F000_toNat]
    show _ = 0x9000 ↔ _
    omega
  rw [mapperWrite, hm]
  exact if_congr hpage rfl rfl

/-! ## The counter's line -/

theorem write_irqLine (r : EightReg) (a : Word) (v : Byte) :
    (r.write a v).irqLine = if (a &&& 0xE001).toNat = 0xE000 then false else r.irqLine := by
  unfold EightReg.write
  split <;> simp_all

theorem write_irqLine_iff {r : EightReg} (a : Word) (v : Byte) (hl : r.irqLine = true) :
    (r.write a v).irqLine = false ↔ a &&& 0xE001 = 0xE000 := by
  rw [write_irqLine, hl, ← BitVec.toNat_inj]
  simp

/-- Settles O58: the countdown, the line's one way down, and each scheme's write. -/
theorem scanlineCounter : Obligations.ScanlineCounter := by
  refine ⟨fun r latch v k he hl hk => ?_, fun r a v => ⟨rfl, fun hl => ⟨?_, write_irqLine_iff a v hl⟩⟩, fun s a v h => ⟨fun hm => ?_,
    fun bank hm => ?_, fun r hm => ?_, fun d hm => ?_⟩⟩
  · rw [write_latch_reload]
    have hcount := counting_iterate (r := { r with irqLatch := latch, irqCounter := 0, irqReload := true }) he rfl hl hk
    refine ⟨by rw [clock_irqCounter, if_pos (.inr rfl)], hcount.counter, hcount.line.trans (decide_eq_decide.2 ?_)⟩
    show latch.toNat - k = 0 ↔ k = latch.toNat
    omega
  · rw [clock_irqLine, hl, Bool.true_or]
  · rw [writeByte_prg v s h, mapperWrite, hm]
  · rw [writeByte_prg v s h, mapperWrite, hm]
  · rw [writeByte_prg v s h, mapperWrite_eightReg a v hm, applyMirrorBit_if, eightReg_write_eq r v h]
  · rw [writeByte_prg v s h, mapperWrite_dual a v hm, applyMirrorBit_if, dualBank_write_eq d v h, dualBank_sub_eq, setWidth4_eq_ofNat,
      setWidth5_eq_ofNat]

end Sys2Proof.Machine
end

section
/-! OAM DMA (53_scheduler_io.md R640; 20_memory.md R94; 50_ppu.md R461): what the copy of a page leaves in OAM, and where it stops. -/

namespace Sys2Proof.Machine

theorem writeByte_4014 (page : Byte) (s : State) : writeByte 0x4014 page s = oamDma page s := by
  rw [writeByte_io page s (by decide) (by decide), ioWrite]
  exact if_pos rfl

theorem oamDma_ok {page : Byte} {s t : State} (h : oamCopy page 0 256 s = .ok () t) : oamDma page s = .ok () (t.addCycles 513) := by
  rw [oamDma, h]

theorem oamDma_fault {page : Byte} {s : State} {f : Fault} (h : oamCopy page 0 256 s = .fault f) : oamDma page s = .fault f := by
  rw [oamDma, h]

/-- One byte of the copy. -/
theorem oamCopy_succ {page b : Byte} {i : Nat} {s t : State} (n : Nat)
    (h : readByte (wordOf (BitVec.ofNat 8 i) page) s = .ok b t) :
    oamCopy page i (n + 1) s = oamCopy page (i + 1) n (t.withPpu (t.ppu.writeOam b)) := by
  rw [oamCopy, h]

theorem wordOf_toNat (lo hi : Byte) : (wordOf lo hi).toNat = lo.toNat + 256 * hi.toNat := by
  have := lo.isLt
  have := hi.isLt
  rw [wordOf_eq_ofNat, BitVec.toNat_ofNat]
  omega

theorem byte_add_ofNat_succ (x : Byte) (n : Nat) : x + 1 + BitVec.ofNat 8 n = x + BitVec.ofNat 8 (n + 1) := by
  apply BitVec.eq_of_toNat_eq
  simp
  omega

/-! ## A page of memory -/

/-- Outside $2000 to $5FFF every address is memory. -/
theorem peek_isSome_of_memory {a : Word} (s : State) (h : a.toNat < 0x2000 ∨ 0x6000 ≤ a.toNat) : ∃ b, peek s a = some b := by
  rcases (by omega : a.toNat < 0x2000 ∨ (0x6000 ≤ a.toNat ∧ a.toNat < 0x8000) ∨ 0x8000 ≤ a.toNat) with h | ⟨h0, h1⟩ | h
  · exact ⟨_, peek_ram s h⟩
  · exact ⟨_, peek_cart s h0 h1⟩
  · exact ⟨_, peek_prg s h⟩

/-- What entry `x` of OAM holds after `n` bytes of a page, from offset `i`, were copied over `old` from entry `base` on. -/
def copied (s : State) (page : Byte) (i n : Nat) (old : Memory) (base x : Byte) : Option Byte :=
  if (x - base).toNat < n then peek s (wordOf (x - base + BitVec.ofNat 8 i) page) else some (old.read x.toNat)

theorem copied_withPpu (s : State) (p : Ppu) : copied (s.withPpu p) = copied s := by
  have hpeek (a : Word) : peek (s.withPpu p) a = peek s a := peek_congr (s := s) (t := s.withPpu p) rfl rfl rfl rfl a
  funext page i n old base x
  rw [copied, copied, hpeek]

/-- The first byte of a copy, then the others from the next entry on. -/
theorem copied_succ {s : State} {page b : Byte} {i n : Nat} {old : Memory} {base : Byte} (hn : n < 256) (hwf : old.wf 0x100 = true)
    (hb : peek s (wordOf (BitVec.ofNat 8 i) page) = some b) (x : Byte) :
    copied s page (i + 1) n (old.write base.toNat b) (base + 1) x = copied s page i (n + 1) old base x := by
  unfold copied
  by_cases hx : x = base
  · have hlast : ¬ (x - (base + 1)).toNat < n := by bv_omega
    have hfirst : (x - base).toNat < n + 1 := by bv_omega
    rw [if_neg hlast, if_pos hfirst, hx, Memory.read_write_same hwf, BitVec.sub_self, BitVec.zero_add, hb]
  · have hlt : (x - (base + 1)).toNat < n ↔ (x - base).toNat < n + 1 := by bv_omega
    have hat : x - (base + 1) + BitVec.ofNat 8 (i + 1) = x - base + BitVec.ofNat 8 i := by
      rw [← byte_add_ofNat_succ]
      bv_omega
    have hne : x.toNat ≠ base.toNat := fun h => hx (BitVec.eq_of_toNat_eq h)
    rw [hat, Memory.read_write_other hwf hne]
    exact if_congr hlt rfl rfl

/-- The copy of a memory page changes nothing of the machine but OAM and `oamaddr`. -/
theorem oamCopy_memory {page : Byte} {n i : Nat} {s : State} (hn : n ≤ 256) (hwf : s.ppu.oam.wf 0x100 = true)
    (hmem : ∀ k : Byte, ∃ b, peek s (wordOf k page) = some b) :
    ∃ oam, oamCopy page i n s = .ok () (s.withPpu { s.ppu with oam := oam, oamaddr := s.ppu.oamaddr + BitVec.ofNat 8 n }) ∧
      ∀ x : Byte, some (oam.read x.toNat) = copied s page i n s.ppu.oam s.ppu.oamaddr x := by
  induction n generalizing i s with
  | zero =>
    refine ⟨s.ppu.oam, ?_, fun x => rfl⟩
    simp [oamCopy, State.withPpu]
  | succ n ih =>
    obtain ⟨b, hb⟩ := hmem (BitVec.ofNat 8 i)
    obtain ⟨oam, hcopy, hread⟩ := ih (i := i + 1) (s := s.withPpu (s.ppu.writeOam b)) (by omega)
      (Memory.wf_write hwf s.ppu.oamaddr.isLt) hmem
    refine ⟨oam, ?_, fun x => (hread x).trans ?_⟩
    · rw [oamCopy_succ n (readByte_of_peek hb), hcopy, ← byte_add_ofNat_succ]
      rfl
    · rw [copied_withPpu]
      exact copied_succ (by omega) hwf hb x

/-! ## Any mapped page -/

theorem ppuReadRegister_oamaddr (i : Nat) (s : State) : (ppuReadRegister i s).2.ppu.oamaddr = s.ppu.oamaddr := by
  unfold ppuReadRegister
  split
  case h_3 =>
    unfold readVramData
    dsimp only
    split <;> rfl
  all_goals rfl

theorem ioRead_ppu (i : Nat) (s : State) : (ioRead i s).2.ppu = s.ppu := by
  unfold ioRead
  split <;> rfl

theorem readByte_oamaddr {a : Word} {s t : State} {v : Byte} (h : readByte a s = .ok v t) : t.ppu.oamaddr = s.ppu.oamaddr := by
  unfold readByte at h
  split at h
  · simp at h
  · obtain ⟨-, rfl⟩ := Access.ok.inj h; rfl
  · obtain ⟨-, rfl⟩ := Access.ok.inj h; exact ppuReadRegister_oamaddr _ s
  · obtain ⟨-, rfl⟩ := Access.ok.inj h; rw [ioRead_ppu]
  · obtain ⟨-, rfl⟩ := Access.ok.inj h; rfl
  · obtain ⟨-, rfl⟩ := Access.ok.inj h; rfl

/-- A copy from mapped addresses completes, each byte moving `oamaddr` by one. -/
theorem oamCopy_completes {page : Byte} {n i : Nat} {s : State} (h : ∀ k : Byte, Mapped s (wordOf k page)) :
    ∃ t, oamCopy page i n s = .ok () t ∧ t.ppu.oamaddr = s.ppu.oamaddr + BitVec.ofNat 8 n := by
  induction n generalizing i s with
  | zero => exact ⟨s, rfl, (BitVec.add_zero _).symm⟩
  | succ n ih =>
    obtain ⟨b, t, hb⟩ := (readByte_ok_iff_mapped _ s).2 (h (BitVec.ofNat 8 i))
    obtain ⟨u, hcopy, haddr⟩ := ih (i := i + 1) (s := t.withPpu (t.ppu.writeOam b))
      fun k => (mapped_congr (t := t) (kept_readByte hb).params _).2 (h k)
    refine ⟨u, (oamCopy_succ n hb).trans hcopy, haddr.trans ?_⟩
    show t.ppu.oamaddr + 1 + BitVec.ofNat 8 n = _
    rw [readByte_oamaddr hb, byte_add_ofNat_succ]

/-- A copy stops at the first unmapped byte. -/
theorem oamCopy_fault_at {page : Byte} {m n i : Nat} {s : State} (hm : m < n)
    (hok : ∀ j < m, Mapped s (wordOf (BitVec.ofNat 8 (i + j)) page)) (hbad : ¬ Mapped s (wordOf (BitVec.ofNat 8 (i + m)) page)) :
    oamCopy page i n s = .fault (.unmappedAddress .cpu (wordOf (BitVec.ofNat 8 (i + m)) page).toNat) := by
  induction m generalizing n i s with
  | zero =>
    obtain ⟨n, rfl⟩ := Nat.exists_eq_succ_of_ne_zero hm.ne'
    rw [Nat.add_zero] at hbad ⊢
    rw [oamCopy, readByte_of_not_mapped hbad]
  | succ m ih =>
    obtain ⟨n, rfl⟩ := Nat.exists_eq_succ_of_ne_zero (Nat.ne_zero_of_lt hm)
    have hfirst : Mapped s (wordOf (BitVec.ofNat 8 i) page) := hok 0 m.succ_pos
    obtain ⟨b, t, hb⟩ := (readByte_ok_iff_mapped _ s).2 hfirst
    have e : ∀ j, i + 1 + j = i + (j + 1) := by omega
    have hmap (a : Word) : Mapped (t.withPpu (t.ppu.writeOam b)) a ↔ Mapped s a := mapped_congr (t := t) (kept_readByte hb).params a
    rw [oamCopy_succ n hb, ih (by omega), e]
    · intro j hj
      rw [hmap, e]
      exact hok (j + 1) (by omega)
    · rw [hmap, e]
      exact hbad

/-! ## The write of $4014 -/

theorem writeByte_4014_memory {s : State} {page : Byte} (hwf : s.ppu.oam.wf 0x100 = true) (hp : page.toNat < 0x20 ∨ 0x60 ≤ page.toNat) :
    ∃ oam, writeByte 0x4014 page s = .ok () { s with
        ppu := { s.ppu with oam := oam }
        cpu := { s.cpu with cycles := s.cpu.cycles + 513 } } ∧
      ∀ k : Byte, some (oam.read (s.ppu.oamaddr + k).toNat) = peek s (wordOf k page) := by
  have hmem (k : Byte) : ∃ b, peek s (wordOf k page) = some b := by
    have := k.isLt
    exact peek_isSome_of_memory s (by rw [wordOf_toNat]; omega)
  obtain ⟨oam, hcopy, hread⟩ := oamCopy_memory (i := 0) (Nat.le_refl 256) hwf hmem
  have hround : s.ppu.oamaddr + BitVec.ofNat 8 256 = s.ppu.oamaddr := BitVec.add_zero _
  have hoff (k : Byte) : s.ppu.oamaddr + k - s.ppu.oamaddr = k := by bv_omega
  refine ⟨oam, ?_, fun k => ?_⟩
  · rw [writeByte_4014, oamDma_ok hcopy, hround]
    rfl
  · rw [hread, copied, hoff, if_pos k.isLt]
    exact congrArg (fun j => peek s (wordOf j page)) (BitVec.add_zero k)

/-- In page $40 the I/O registers come before the unlisted range; in the pages after it the first byte is unlisted. -/
theorem writeByte_4014_fault {s : State} {page : Byte} (h0 : 0x40 ≤ page.toNat) (h1 : page.toNat < 0x60)
    (hu : s.params.unlistedIo = .fault) :
    writeByte 0x4014 page s = .fault (.unmappedAddress .cpu (if page = 0x40 then 0x4018 else 256 * page.toNat)) := by
  have hbad {a : Word} (h : 0x4018 ≤ a.toNat ∧ a.toNat < 0x6000) : ¬ Mapped s a := by
    rintro (hz | hlo | hhi)
    · simp [hu] at hz
    · omega
    · omega
  rw [writeByte_4014]
  by_cases hp : page = 0x40
  · subst hp
    exact oamDma_fault (oamCopy_fault_at (m := 0x18) (by decide) (fun j hj => .inr (.inl (by rw [wordOf_toNat]; simp; omega)))
      (hbad (by decide)))
  · have hne : page.toNat ≠ 0x40 := fun h => hp (BitVec.eq_of_toNat_eq h)
    have ha : (wordOf (BitVec.ofNat 8 (0 + 0)) page).toNat = 256 * page.toNat := by rw [wordOf_toNat]; exact Nat.zero_add _
    rw [if_neg hp, ← ha]
    exact oamDma_fault (oamCopy_fault_at (m := 0) (by decide) (fun j hj => absurd hj (Nat.not_lt_zero j)) (hbad (by omega)))

theorem writeByte_4014_completes {s : State} {page : Byte} (h : ∀ k : Byte, Mapped s (wordOf k page)) :
    ∃ t, writeByte 0x4014 page s = .ok () t ∧ t.cpu = { s.cpu with cycles := s.cpu.cycles + 513 } ∧ t.ppu.oamaddr = s.ppu.oamaddr := by
  obtain ⟨t, hcopy, haddr⟩ := oamCopy_completes (n := 256) (i := 0) h
  have hw : writeByte 0x4014 page s = .ok () (t.addCycles 513) := (writeByte_4014 page s).trans (oamDma_ok hcopy)
  exact ⟨_, hw, writeByte_cpu hw, haddr.trans (BitVec.add_zero _)⟩

/-- Settles O59: the copy of a memory page, the first unmapped byte of a page that has one, and any page of mapped bytes. -/
theorem oamDmaCopiesAPage : Obligations.OamDmaCopiesAPage := by
  refine ⟨fun s page hm hp => ?_, fun s page => writeByte_4014_fault, fun s page => writeByte_4014_completes⟩
  obtain ⟨-, -, -, hoam, -⟩ := hm
  obtain ⟨oam, hw, hread⟩ := writeByte_4014_memory hoam hp
  refine ⟨oam, hw, fun k => (hread k).trans ?_⟩
  rw [wordOf_eq_ofNat, Nat.add_comm]

end Sys2Proof.Machine
end

section
/-! The decoder and the encoder: each cell of the opcode matrix makes the instructions its opcode byte encodes, and each instruction has
a cell (30_encoding.md R140, R141, R155, R160, R161, R167, R168). -/

namespace Sys2Proof.Machine

/-! ## Operand bytes -/

theorem byteOfInt_sext8 (b : Byte) : byteOfInt (sext8 b) = b := BitVec.ofInt_toInt

/-- A displacement in the range of `sext_8` is the one its byte stands for (30_encoding.md R155). -/
theorem sext8_byteOfInt {off : Int} (h : inBranchRange off = true) : sext8 (byteOfInt off) = off := by
  simp only [inBranchRange, Bool.and_eq_true, decide_eq_true_eq] at h
  rw [sext8, byteOfInt, BitVec.toInt_ofInt]
  exact Int.bmod_eq_of_le (by omega) (by omega)

theorem inBranchRange_sext8 (b : Byte) : inBranchRange (sext8 b) = true := by revert b; decide

theorem loByte_toNat (w : Word) : (loByte w).toNat = w.toNat % 256 := BitVec.toNat_setWidth ..

theorem hiByte_toNat (w : Word) : (hiByte w).toNat = w.toNat / 256 := by
  have := w.isLt
  rw [hiByte, BitVec.toNat_setWidth, BitVec.toNat_ushiftRight, Nat.shiftRight_eq_div_pow]
  omega

theorem wordOf_loByte_hiByte (w : Word) : wordOf (loByte w) (hiByte w) = w := by
  apply BitVec.eq_of_toNat_eq
  rw [wordOf_toNat, loByte_toNat, hiByte_toNat]
  omega

theorem loByte_wordOf (lo hi : Byte) : loByte (wordOf lo hi) = lo := by
  apply BitVec.eq_of_toNat_eq
  rw [loByte_toNat, wordOf_toNat]
  omega

theorem hiByte_wordOf (lo hi : Byte) : hiByte (wordOf lo hi) = hi := by
  apply BitVec.eq_of_toNat_eq
  rw [hiByte_toNat, wordOf_toNat]
  omega

/-! ## What the decoder makes of an opcode and its operand bytes -/

/-- The instruction a cell of the opcode matrix makes of the operand bytes that follow the opcode (30_encoding.md R140, R155). -/
inductive CellMakes : OpForm → List Byte → Instr → Prop where
  | noOperand (i : Instr) : CellMakes (.noOperand i) [] i
  | withByte (f : Byte → Instr) (b : Byte) : CellMakes (.withByte f) [b] (f b)
  | withOffset (f : Int → Instr) (b : Byte) : CellMakes (.withOffset f) [b] (f (sext8 b))
  | withWord (f : Word → Instr) (lo hi : Byte) : CellMakes (.withWord f) [lo, hi] (f (wordOf lo hi))

theorem CellMakes.length {form : OpForm} {operand : List Byte} {i : Instr} (h : CellMakes form operand i) :
    operand.length = form.length - 1 := by
  cases h <;> rfl

theorem decode_of_cellMakes {op : Byte} {form : OpForm} {operand : List Byte} {i : Instr} (hop : opForm op = some form)
    (h : CellMakes form operand i) (rest : List Byte) : decode (op :: operand ++ rest) = .ok (i, rest) := by
  cases h <;> simp [decode, hop]

/-- All the decoder can answer: an opcode of the matrix, its operand bytes, and what follows them. -/
theorem decode_ok_cases {bs rest : List Byte} {i : Instr} (h : decode bs = .ok (i, rest)) :
    ∃ op form operand, bs = op :: operand ++ rest ∧ opForm op = some form ∧ CellMakes form operand i := by
  unfold decode at h
  split at h
  · cases h
  · rename_i op tail
    split at h
    · cases h
    · rename_i hop
      cases h
      exact ⟨op, _, [], rfl, hop, .noOperand i⟩
    · rename_i f hop
      split at h
      · cases h
        exact ⟨op, _, [_], rfl, hop, .withByte f _⟩
      · cases h
    · rename_i f hop
      split at h
      · cases h
        exact ⟨op, _, [_], rfl, hop, .withOffset f _⟩
      · cases h
    · rename_i f hop
      split at h
      · cases h
        exact ⟨op, _, [_, _], rfl, hop, .withWord f _ _⟩
      · cases h

/-! ## Every instruction has a cell -/

/-- The opcode byte of `i`, the cell it names, and the operand that cell makes `i` of, as `encode` writes it. -/
inductive HasCell (i : Instr) : Prop where
  | noOperand (op : Byte) (he : encode i = [op]) (hop : opForm op = some (.noOperand i))
  | withByte (op : Byte) (f : Byte → Instr) (b : Byte) (he : encode i = formatByte op b) (hop : opForm op = some (.withByte f))
      (hi : i = f b)
  | withOffset (op : Byte) (f : Int → Instr) (off : Int) (he : encode i = formatOffset op off) (hop : opForm op = some (.withOffset f))
      (hi : i = f off) (hwf : i.wellFormed = inBranchRange off)
  | withWord (op : Byte) (f : Word → Instr) (w : Word) (he : encode i = formatWord op w) (hop : opForm op = some (.withWord f))
      (hi : i = f w)

theorem hasCell (i : Instr) : HasCell i := by
  cases i <;>
    first
      | exact .noOperand _ rfl rfl
      | exact .withByte _ _ _ rfl rfl rfl
      | exact .withOffset _ _ _ rfl rfl rfl rfl
      | exact .withWord _ _ _ rfl rfl rfl

/-- A well-formed instruction is what its cell makes of its own operand bytes. -/
theorem cellMakes_of_encode (i : Instr) (hwf : i.wellFormed = true) :
    ∃ op form operand, encode i = op :: operand ∧ opForm op = some form ∧ CellMakes form operand i := by
  cases hasCell i with
  | noOperand op he hop => exact ⟨op, _, _, he, hop, .noOperand i⟩
  | withByte op f b he hop hi => exact ⟨op, _, _, he, hop, hi ▸ .withByte f b⟩
  | withOffset op f off he hop hi hrange =>
    have hm := CellMakes.withOffset f (byteOfInt off)
    rw [sext8_byteOfInt (hrange ▸ hwf), ← hi] at hm
    exact ⟨op, _, _, he, hop, hm⟩
  | withWord op f w he hop hi =>
    have hm := CellMakes.withWord f (loByte w) (hiByte w)
    rw [wordOf_loByte_hiByte, ← hi] at hm
    exact ⟨op, _, _, he, hop, hm⟩

/-- Settles O1: the instruction's own cell, read back. -/
theorem decodeOfEncode : Obligations.DecodeOfEncode := by
  intro i rest hwf
  obtain ⟨op, form, operand, he, hop, hm⟩ := cellMakes_of_encode i hwf
  rw [he]
  exact decode_of_cellMakes hop hm rest

/-! ## Every cell makes what its opcode encodes -/

/-- Whatever operand a cell is given, the instruction it makes is encoded with the opcode `op`, and is well-formed where the operand is
legal. -/
def CellEncodedWith (op : Byte) : OpForm → Prop
  | .noOperand i => encode i = [op] ∧ i.wellFormed = true
  | .withByte f => ∀ b, encode (f b) = formatByte op b ∧ (f b).wellFormed = true
  | .withOffset f => ∀ off, encode (f off) = formatOffset op off ∧ (f off).wellFormed = inBranchRange off
  | .withWord f => ∀ w, encode (f w) = formatWord op w ∧ (f w).wellFormed = true

/-- The opcode matrix agrees with the encoder, cell by cell: row is the high nibble, column the low one. -/
theorem cellEncodedWith_of_opForm {op : Byte} {form : OpForm} (h : opForm op = some form) : CellEncodedWith op form := by
  have hnibbles : BitVec.ofNat 8 (op.toNat / 16 * 16 + op.toNat % 16) = op := by
    rw [Nat.div_add_mod']
    exact BitVec.ofNat_toNat ..
  rw [← hnibbles]
  unfold opForm at h
  dsimp only at h
  generalize op.toNat / 16 = row, op.toNat % 16 = col at h ⊢
  split at h
  case h_17 => cases h
  all_goals
    simp only [opRow0, opRow1, opRow2, opRow3, opRow4, opRow5, opRow6, opRow7, opRow8, opRow9, opRowA, opRowB, opRowC, opRowD,
      opRowE, opRowF] at h
    split at h <;> cases h <;> dsimp only [CellEncodedWith] <;> intros <;> exact ⟨rfl, rfl⟩

/-- Settles O2: the cell that was read is the instruction's own. -/
theorem encodeOfDecode : Obligations.EncodeOfDecode := by
  intro bs rest i h
  obtain ⟨op, form, operand, rfl, hop, hm⟩ := decode_ok_cases h
  have hcell := cellEncodedWith_of_opForm hop
  cases hm with
  | noOperand i =>
    obtain ⟨he, hwf⟩ := hcell
    exact ⟨by rw [he], hwf⟩
  | withByte f b =>
    obtain ⟨he, hwf⟩ := hcell b
    exact ⟨by rw [he, formatByte], hwf⟩
  | withOffset f b =>
    obtain ⟨he, hwf⟩ := hcell (sext8 b)
    exact ⟨by rw [he, formatOffset, byteOfInt_sext8], hwf.trans (inBranchRange_sext8 b)⟩
  | withWord f lo hi =>
    obtain ⟨he, hwf⟩ := hcell (wordOf lo hi)
    exact ⟨by rw [he, formatWord, loByte_wordOf, hiByte_wordOf], hwf⟩

/-! ## Written-out words and illegal bytes -/

/-- Settles O3: the decoded words are the instructions' own encodings; the last byte has no cell. -/
theorem decodedWords : Obligations.DecodedWords := by
  have hbne : encode (.bne (-5)) = [0xD0, 0xFB] := by decide
  exact ⟨decodeOfEncode (.ldaImm 0x80) [] rfl, decodeOfEncode (.staAbsx 0x0200) [] rfl, decodeOfEncode .tsx [] rfl,
    decodeOfEncode (.sbcIndx 0x10) [] rfl, decodeOfEncode (.bitAbs 0x2002) [] rfl, decodeOfEncode .lsrAcc [] rfl,
    decodeOfEncode (.incZpx 0x7F) [] rfl, decodeOfEncode (.jmpInd 0x02FF) [] rfl, hbne ▸ decodeOfEncode (.bne (-5)) [] rfl,
    decodeOfEncode .plp [] rfl, rfl⟩

/-- The listed bytes are the empty cells of the opcode matrix (30_encoding.md R161, R167). -/
theorem opForm_eq_none_iff (op : Byte) : opForm op = none ↔ op ∈ illegalOpcodes := by
  have hlisted : ∀ b ∈ illegalOpcodes, (opForm b).isNone = true := by decide
  exact ⟨mem_illegalOpcodes_of_opForm, fun h => Option.isNone_iff_eq_none.1 (hlisted op h)⟩

/-- With three bytes at hand only the opcode can be at fault. -/
theorem decode_illegal_iff (op b1 b2 : Byte) : decode [op, b1, b2] = .error (.illegalOpcode op) ↔ opForm op = none := by
  cases h : opForm op with
  | none => simp [decode, h]
  | some form => cases form <;> simp [decode, h]

/-- Settles O4: a byte is refused where its cell is empty. -/
theorem illegalOpcodesAreThe105 : Obligations.IllegalOpcodesAreThe105 :=
  ⟨fun op b1 b2 => (decode_illegal_iff op b1 b2).trans (opForm_eq_none_iff op), rfl⟩

end Sys2Proof.Machine
end

section
/-! A step of an idle machine: `exec` of the instruction at PC, or the stop of an illegal byte (30_encoding.md R143, R160;
53_scheduler_io.md R632; 60_exceptions.md R702, R710, R711). -/

namespace Sys2Proof.Machine

/-! ## No interrupt is ready -/

theorem sourceAsserts_apu_iff (s : State) : sourceAsserts s .apu = true ↔ s.apu.frameIrq = true ∨ s.apu.dmc.dmcIrq = true := by
  simp [sourceAsserts, Apu.asserts]

theorem sourceAsserts_mapper_iff (s : State) :
    sourceAsserts s .mapper = true ↔ ∃ r, s.mapper = .eightReg r ∧ r.irqLine = true := by
  cases h : s.mapper <;> simp [sourceAsserts, Mapper.asserts, h]

theorem irqReady_iff (s : State) : irqReady s = true ↔ IrqPending s := by
  have hany : (s.irqSources.any (sourceAsserts s) = true) ↔
      (.apu ∈ s.irqSources ∧ sourceAsserts s .apu = true) ∨ (.mapper ∈ s.irqSources ∧ sourceAsserts s .mapper = true) := by
    rw [List.any_eq_true]
    constructor
    · rintro ⟨src, hmem, hsrc⟩
      cases src with
      | apu => exact .inl ⟨hmem, hsrc⟩
      | mapper => exact .inr ⟨hmem, hsrc⟩
    · rintro (h | h)
      · exact ⟨_, h⟩
      · exact ⟨_, h⟩
  simp only [irqReady, IrqPending, Bool.and_eq_true, Bool.not_eq_true', hany, sourceAsserts_apu_iff, sourceAsserts_mapper_iff]

theorem nmiReady_iff (s : State) : nmiReady s = true ↔ NmiPending s := by
  simp [nmiReady, NmiPending]

theorem endDeferral_eq_afterDeferral (s : State) : endDeferral s = afterDeferral s := by
  unfold endDeferral afterDeferral
  cases s.cpu.nmiPending <;> simp

/-- With nothing from the host and no interrupt ready, a step is one instruction, after the end of a deferral. -/
theorem step_of_idle {s : State} (hidle : Idle s) (hirq : ¬ IrqPending s) (hnmi : ¬ NmiPending s) :
    step s = runInstruction (afterDeferral s) := by
  obtain ⟨hfault, hsynced, hqueue⟩ := hidle
  rw [← irqReady_iff, Bool.not_eq_true] at hirq
  rw [← nmiReady_iff, Bool.not_eq_true] at hnmi
  have hstep : step s = execute s := by simp [step, hfault, hsynced, boundary, hqueue]
  rw [hstep, execute, hirq, hnmi, endDeferral_eq_afterDeferral]
  split <;> rfl

/-! ## Fetching from memory -/

theorem bytesAt_cons {s : State} {a : Word} {b : Byte} {bs : List Byte} :
    BytesAt s a (b :: bs) ↔ peek s a = some b ∧ BytesAt s (a + 1) bs := by
  have hnext (k : Nat) : a + BitVec.ofNat 16 (k + 1) = a + 1 + BitVec.ofNat 16 k := by
    rw [BitVec.add_assoc, Nat.add_comm, BitVec.ofNat_add]
    rfl
  constructor
  · intro h
    refine ⟨by simpa using h 0 (by simp), fun k hk => ?_⟩
    rw [← hnext]
    exact h (k + 1) (by simpa using hk)
  · rintro ⟨h0, h⟩ k hk
    cases k with
    | zero => simpa using h0
    | succ k =>
      rw [hnext]
      exact h k (by simpa using hk)

theorem fetchBytes_of_bytesAt {s : State} {a : Word} {bs : List Byte} (h : BytesAt s a bs) : fetchBytes bs.length a s = .ok bs s := by
  induction bs generalizing a with
  | nil => rfl
  | cons b bs ih =>
    obtain ⟨hb, hbs⟩ := bytesAt_cons.1 h
    simp only [List.length_cons, fetchBytes, readByte_of_peek hb, ih hbs]

/-- Where the bytes of an instruction stand at PC in memory, fetching it has no effect. -/
theorem fetch_of_bytesAt {s : State} {bs : List Byte} {i : Instr} (hdec : decode bs = .ok (i, [])) (h : BytesAt s s.cpu.pc bs) :
    fetch s = .ok i s := by
  obtain ⟨op, form, operand, rfl, hop, hm⟩ := decode_ok_cases hdec
  rw [List.append_nil] at hdec h
  obtain ⟨hb, hoperand⟩ := bytesAt_cons.1 h
  simp only [fetch, readByte_of_peek hb, hop, ← hm.length, fetchBytes_of_bytesAt hoperand, hdec]

theorem fetch_illegal {s : State} {op : Byte} (hb : peek s s.cpu.pc = some op) (hop : opForm op = none) :
    fetch s = .fault (.illegalOpcode s.cpu.pc op) := by
  simp only [fetch, readByte_of_peek hb, hop]

theorem runInstruction_of_fetch {s t : State} {i : Instr} (h : fetch s = .ok i t) : runInstruction s = exec i t := by
  rw [runInstruction, h]

theorem runInstruction_fault {s : State} {f : Fault} (h : fetch s = .fault f) : runInstruction s = .fault f := by
  rw [runInstruction, h]

/-- Settles O5: the one instruction of an idle step, fetched from memory or from a device register. -/
theorem stepRunsDecodedInstruction : Obligations.StepRunsDecodedInstruction := by
  refine ⟨fun s bs i hidle hirq hnmi hdec hbs => ?_, fun s t i hidle hirq hnmi hf => ?_⟩
  · have hf : fetch (afterDeferral s) = .ok i (afterDeferral s) := fetch_of_bytesAt hdec hbs
    rw [step_of_idle hidle hirq hnmi, runInstruction_of_fetch hf]
  · rw [step_of_idle hidle hirq hnmi, runInstruction_of_fetch hf]

/-- Settles O6: the fetch of the idle step stops at an empty cell of the opcode matrix. -/
theorem illegalOpcodeFaults : Obligations.IllegalOpcodeFaults := by
  intro s op hidle hirq hnmi hb hop
  have hf : fetch (afterDeferral s) = .fault (.illegalOpcode s.cpu.pc op) :=
    fetch_illegal (s := afterDeferral s) hb ((opForm_eq_none_iff op).2 hop)
  rw [step_of_idle hidle hirq hnmi, runInstruction_fault hf]

end Sys2Proof.Machine
end

section
/-! The effective address and the page-cross bit of each addressing mode (30_encoding.md R146 to R156), and the branch, whose target is
compared with the next instruction's page in the same way (43_control_flow.md R294). -/

namespace Sys2Proof.Machine

/-! ## Pages -/

theorem page_toNat (a : Word) : (page a).toNat = a.toNat / 256 * 256 := by
  rw [page, BitVec.toNat_and]
  have hhigh : (a.toNat &&& 0xFF00) / 2 ^ 8 = a.toNat / 2 ^ 8 % 2 ^ 8 := by
    rw [Nat.and_div_two_pow, ← Nat.and_two_pow_sub_one_eq_mod]
  have hlow : (a.toNat &&& 0xFF00) % 2 ^ 8 = 0 := by
    rw [Nat.and_mod_two_pow]
    exact Nat.and_zero _
  have := a.isLt
  show a.toNat &&& 0xFF00 = _
  omega

theorem page_eq_iff (a b : Word) : page a = page b ↔ a.toNat / 256 = b.toNat / 256 := by
  rw [← BitVec.toNat_inj, page_toNat, page_toNat]
  omega

theorem page_bne_eq_decide (a b : Word) : (page a != page b) = decide (a.toNat / 256 ≠ b.toNat / 256) := by
  rw [bne, beq_eq_decide, ← decide_not]
  exact decide_eq_decide.2 (not_congr (page_eq_iff a b))

/-! ## Indexing and pointers -/

theorem indexed_eq (base : Word) (index : Byte) :
    indexed base index = (BitVec.ofNat 16 (base.toNat + index.toNat),
      decide (base.toNat / 256 ≠ (base.toNat + index.toNat) % 65536 / 256)) := by
  have hea : base + index.setWidth 16 = BitVec.ofNat 16 (base.toNat + index.toNat) := by
    apply BitVec.eq_of_toNat_eq
    simp
  rw [indexed, page_bne_eq_decide, hea, BitVec.toNat_ofNat]

/-- A zero-page address computed with a wrap inside page zero (30_encoding.md R147, R148, R153). -/
theorem setWidth_add_eq_ofNat (b i : Byte) : (b + i).setWidth 16 = BitVec.ofNat 16 ((b.toNat + i.toNat) % 256) := by
  apply BitVec.eq_of_toNat_eq
  simp

theorem peek_zeroPage (s : State) (z : Byte) : peek s (BitVec.ofNat 16 z.toNat) = some (zeroPage s z) := by
  have hz : (BitVec.ofNat 16 z.toNat).toNat = z.toNat := by
    rw [BitVec.toNat_ofNat]
    omega
  rw [peek_ram s (by omega), hz, Nat.mod_eq_of_lt (by omega)]
  rfl

theorem zeroPagePointer_bytes (s : State) (z : Byte) :
    ∃ lo hi, peek s (BitVec.ofNat 16 z.toNat) = some lo ∧ peek s (BitVec.ofNat 16 ((z.toNat + 1) % 256)) = some hi ∧
      zeroPagePointer s z = wordOf lo hi := by
  have hnext : (z.toNat + 1) % 256 = (z + 1).toNat := (BitVec.toNat_add z 1).symm
  exact ⟨_, _, peek_zeroPage s z, hnext ▸ peek_zeroPage s (z + 1), rfl⟩

/-- Settles O7, mode by mode. -/
theorem effectiveAddresses : Obligations.EffectiveAddresses := by
  intro s b w
  refine ⟨?_, ?_, ?_, rfl, indexed_eq w s.cpu.x, indexed_eq w s.cpu.y, ?_, ?_⟩
  · rw [effective, BitVec.ofNat_toNat]
  · rw [effective, setWidth_add_eq_ofNat]
  · rw [effective, setWidth_add_eq_ofNat]
  · obtain ⟨lo, hi, hlo, hhi, hptr⟩ := zeroPagePointer_bytes s (b + s.cpu.x)
    rw [BitVec.toNat_add] at hlo hhi
    refine ⟨lo, hi, hlo, ?_, ?_⟩
    · rwa [Nat.mod_add_mod] at hhi
    · rw [effective, hptr, wordOf_eq_ofNat]
  · obtain ⟨lo, hi, hlo, hhi, hptr⟩ := zeroPagePointer_bytes s b
    exact ⟨lo, hi, hlo, hhi, by rw [effective, hptr, indexed_eq, wordOf_toNat]⟩

/-! ## Branches -/

theorem branchTarget_eq (next : Word) (off : Int) : branchTarget next off = BitVec.ofInt 16 (next.toNat + off) := by
  rw [branchTarget, BitVec.ofInt_add, BitVec.ofInt_natCast, BitVec.ofNat_toNat, BitVec.setWidth_eq]

/-- The cycles of a taken branch beyond its two: one, and one more when it leaves the next instruction's page. -/
theorem crossing_cycles (target next : Word) :
    1 + bit01 (page target != page next) = if target.toNat / 256 = next.toNat / 256 then 1 else 2 := by
  rw [page_bne_eq_decide]
  by_cases h : target.toNat / 256 = next.toNat / 256 <;> simp [h, bit01]

/-- Settles O27: the common meaning of the eight branches, taken and not taken. -/
theorem branchesOnOneFlag : Obligations.BranchesOnOneFlag := by
  intro i cond off s hf
  dsimp only
  rw [exec_of_branchForm hf, branching, ← branchTarget_eq]
  cases cond s.cpu.p with
  | false => rfl
  | true =>
    rw [crossing_cycles]
    simp only [if_true, State.addCycles, State.setPc, Nat.add_assoc]
    rfl

end Sys2Proof.Machine
end

section
/-! Reading instructions: each completes at a mapped operand with its rule's effect on the CPU (30_encoding.md R156, R170;
40_load_store_transfer.md R200 to R203; 41_alu_logic_compare.md R230 to R240). -/

namespace Sys2Proof.Machine

/-! ## The operand -/

theorem fetchSource_of_readable {s : State} {src : Source} (h : Readable s src) : ∃ v t, fetchSource src s = .ok v t := by
  cases src with
  | imm v => exact ⟨v, s, rfl⟩
  | mem m => exact (readByte_ok_iff_mapped _ s).2 h

theorem fetchSource_of_memoryOperand {s : State} {src : Source} {b : Byte} (h : memoryOperand s src = some b) :
    fetchSource src s = .ok b s := by
  cases src with
  | imm v => rw [fetchSource, Option.some.inj h]
  | mem m => exact readByte_of_peek h

/-- A reading mnemonic whose meaning changes the CPU alone, as `effect` says, completes in every form. -/
theorem completesReading_of_effect {op : ReadOp} {effect : Byte → Cpu → Cpu}
    (h : ∀ v s, op.effect v s = { s with cpu := effect v s.cpu }) : CompletesReading op effect := by
  intro i src len base s hf hreadable
  obtain ⟨v, t, hv⟩ := fetchSource_of_readable hreadable
  refine ⟨v, t, hv, fun b hb => ?_, ?_⟩
  · rw [fetchSource_of_memoryOperand hb] at hv
    obtain ⟨rfl, rfl⟩ := Access.ok.inj hv
    exact ⟨rfl, rfl⟩
  · have hcycles : (effect v t.cpu).cycles = t.cpu.cycles := by rw [← readOp_cycles op v t, h]
    rw [exec_of_readForm hf, reading_ok hv, h, crossCycle_eq_pageCrossCycle, State.addCycles, hcycles, Nat.add_assoc]

/-! ## Loads and logic -/

/-- Settles O12: a load is its register and N and Z. -/
theorem loadsTakeTheOperand : Obligations.LoadsTakeTheOperand := by
  refine ⟨completesReading_of_effect fun v s => ?_, completesReading_of_effect fun v s => ?_, completesReading_of_effect fun v s => ?_⟩
  all_goals
    rw [ReadOp.effect, loadReg, setNZ_eq_nzOf]
    rfl

/-- Settles O15: the result and its N and Z. -/
theorem logicCombinesWithA : Obligations.LogicCombinesWithA := by
  refine ⟨completesReading_of_effect fun v s => ?_, completesReading_of_effect fun v s => ?_, completesReading_of_effect fun v s => ?_⟩
  all_goals
    rw [ReadOp.effect, accumulate, Flags.logic, setNZ_eq_nzOf]
    rfl

/-! ## Addition and subtraction -/

/-- The overflow test of R231: both operands have one sign and the result the other, which is when the signed sum does not fit. -/
theorem adc_overflow_eq_decide (a m : Byte) (c : Bool) :
    ((~~~(a ^^^ m) &&& (a ^^^ BitVec.ofNat 8 (addSum a m c)) &&& 0x80) != 0) =
      decide (a.toInt + m.toInt + (bit01 c : Nat) < -128 ∨ 127 < a.toInt + m.toInt + (bit01 c : Nat)) := by
  have hbit : bit01 c ≤ 1 := by revert c; decide
  have hmask (x : Byte) : (x &&& 0x80 != 0) = x.msb := by revert x; decide
  have hmsb : ~~~(a ^^^ m) &&& (a ^^^ BitVec.ofNat 8 (addSum a m c)) &&& 0x80 != 0 ↔
      (a.msb = m.msb ∧ a.msb ≠ (BitVec.ofNat 8 (addSum a m c)).msb) := by
    rw [hmask, BitVec.msb_and, BitVec.msb_not, BitVec.msb_xor, BitVec.msb_xor]
    simp
  rw [Bool.eq_iff_iff, hmsb, decide_eq_true_eq]
  simp only [BitVec.msb_eq_decide, BitVec.toInt_eq_toNat_cond, BitVec.toNat_ofNat, addSum, decide_eq_decide, ne_eq]
  omega

/-- ADC is the two's-complement sum (41_alu_logic_compare.md R231, R240). -/
theorem adc_eq (p : Flags) (a m : Byte) :
    Flags.adc p a m = (BitVec.ofNat 8 (addSum a m p.c),
      { nzOf p (BitVec.ofNat 8 (addSum a m p.c)) with
        c := decide (256 ≤ addSum a m p.c)
        v := decide (a.toInt + m.toInt + (bit01 p.c : Nat) < -128 ∨ 127 < a.toInt + m.toInt + (bit01 p.c : Nat)) }) := by
  rw [Flags.adc, setNZ_eq_nzOf, adc_overflow_eq_decide]
  rfl

/-- Settles O13: the accumulator takes the sum's low byte. -/
theorem adcIsTwosComplementAddition : Obligations.AdcIsTwosComplementAddition :=
  completesReading_of_effect fun m s => by
    rw [ReadOp.effect, accumulate, adc_eq]
    rfl

/-- Subtraction is addition of the complement, carry for carry (41_alu_logic_compare.md R232). -/
theorem sbc_eq_adc_not (p : Flags) (a m : Byte) : Flags.sbc p a m = Flags.adc p a (~~~m) := by
  have hnot : m ^^^ 0xFF = ~~~m := BitVec.xor_allOnes
  have hsign : ~~~(a ^^^ ~~~m) = a ^^^ m := by rw [BitVec.not_xor_right, BitVec.not_not]
  rw [Flags.sbc, Flags.adc, hnot, hsign]

/-- The complement's sum as the difference less the borrow. -/
theorem addSum_not (a m : Byte) (c : Bool) :
    (addSum a (~~~m) c : Int) = (a.toNat : Int) - m.toNat - (1 - (bit01 c : Nat)) + 256 := by
  have := m.isLt
  rw [addSum, BitVec.toNat_not]
  omega

theorem toInt_not (m : Byte) : (~~~m).toInt = -1 - m.toInt := by revert m; decide

/-- SBC is the two's-complement difference less the borrow (41_alu_logic_compare.md R232, R240). -/
theorem sbc_eq (p : Flags) (a m : Byte) :
    let borrow : Int := 1 - (bit01 p.c : Nat)
    let unsigned : Int := (a.toNat : Int) - (m.toNat : Int) - borrow
    let signed : Int := a.toInt - m.toInt - borrow
    Flags.sbc p a m = (BitVec.ofInt 8 unsigned,
      { nzOf p (BitVec.ofInt 8 unsigned) with c := decide (0 ≤ unsigned), v := decide (signed < -128 ∨ 127 < signed) }) := by
  intro borrow unsigned signed
  have hsum : (addSum a (~~~m) p.c : Int) = unsigned + 256 := addSum_not a m p.c
  have hres : BitVec.ofNat 8 (addSum a (~~~m) p.c) = BitVec.ofInt 8 unsigned := by
    rw [← BitVec.ofInt_natCast, hsum, BitVec.ofInt_add]
    exact BitVec.add_zero _
  have hcarry : 256 ≤ addSum a (~~~m) p.c ↔ 0 ≤ unsigned := by omega
  have hsigned : a.toInt + (~~~m).toInt + (bit01 p.c : Nat) = signed := by
    rw [toInt_not]
    omega
  rw [sbc_eq_adc_not, adc_eq, hres, hsigned, decide_eq_decide.2 hcarry]

/-- Settles O14: the accumulator takes the difference's low byte. -/
theorem sbcIsTwosComplementSubtraction : Obligations.SbcIsTwosComplementSubtraction :=
  completesReading_of_effect fun m s => by
    rw [ReadOp.effect, accumulate, sbc_eq]
    rfl

/-! ## Comparisons and the bit test -/

/-- The flags of a comparison (41_alu_logic_compare.md R236 to R238). -/
theorem compare_eq (p : Flags) (r m : Byte) :
    p.compare r m = { p with
      c := decide (m.toNat ≤ r.toNat)
      z := decide (r = m)
      n := decide (128 ≤ (r.toNat + 256 - m.toNat) % 256) } := by
  have hdiff : (r - m).toNat = (r.toNat + 256 - m.toNat) % 256 := by
    have := m.isLt
    rw [BitVec.toNat_sub]
    omega
  rw [Flags.compare, bit7_eq_decide, hdiff, beq_eq_decide]

/-- Settles O16: one comparison for the three registers. -/
theorem comparesWriteFlagsOnly : Obligations.ComparesWriteFlagsOnly := by
  refine ⟨completesReading_of_effect fun m s => ?_, completesReading_of_effect fun m s => ?_, completesReading_of_effect fun m s => ?_⟩
  all_goals
    rw [ReadOp.effect, compareReg, compare_eq]
    rfl

theorem bit6_eq_decide (v : Byte) : v.getLsbD 6 = decide (64 ≤ v.toNat % 128) := by revert v; decide

/-- Settles O17: the flags are the mask's and the operand's bits. -/
theorem bitTestsTheOperand : Obligations.BitTestsTheOperand :=
  completesReading_of_effect fun m s => by
    rw [ReadOp.effect, bitTestA, Flags.bitTest, bit7_eq_decide, bit6_eq_decide, beq_eq_decide]
    rfl

end Sys2Proof.Machine
end

section
/-! Stores and read-modify-write instructions complete at every mapped address (30_encoding.md R170; 40_load_store_transfer.md R200, R204
to R206; 42_shift_incdec.md R260 to R266; 53_scheduler_io.md R640). -/

namespace Sys2Proof.Machine

/-! ## Writes that complete -/

/-- A write at a mapped address completes; at $4014 so does the OAM DMA it starts, when its page is mapped. -/
theorem writeByte_of_storable {s : State} {a : Word} {v : Byte} (h : Storable s a v) : ∃ t, writeByte a v s = .ok () t := by
  obtain ⟨hmapped, hpage⟩ := h
  rcases cpuRange_cases a with h1 | ⟨h0, h1⟩ | ⟨h0, h1⟩ | ⟨h0, h1⟩ | ⟨h0, h1⟩ | h1
  · exact ⟨_, writeByte_ram v s h1⟩
  · exact ⟨_, writeByte_ppu v s h0 h1⟩
  · by_cases hdma : a = 0x4014
    · obtain ⟨t, ht, -⟩ := writeByte_4014_completes (hpage hdma)
      exact ⟨t, hdma ▸ ht⟩
    · have hindex : a.toNat - 0x4000 ≠ 0x14 := fun e => hdma (BitVec.eq_of_toNat_eq (show a.toNat = 0x4014 by omega))
      rw [writeByte_io v s h0 h1, ioWrite, if_neg hindex]
      split <;> exact ⟨_, rfl⟩
  · exact ⟨_, writeByte_zeros v s (hmapped.resolve_right (by omega)) h0 h1⟩
  · exact ⟨_, writeByte_cart v s h0 h1⟩
  · exact ⟨_, writeByte_prg v s h1⟩

/-- A page of memory is mapped whole. -/
theorem mapped_of_memoryPage {s : State} {page : Byte} (h : page.toNat < 0x20 ∨ 0x60 ≤ page.toNat) (k : Byte) :
    Mapped s (wordOf k page) := by
  have := k.isLt
  rw [Mapped, wordOf_toNat]
  omega

/-- Settles O18: the one write of a store, at an address that takes it. -/
theorem storesWriteOnce : Obligations.StoresWriteOnce := by
  intro i r m len base s hf hstorable
  obtain ⟨t, ht⟩ := writeByte_of_storable hstorable
  exact ⟨t, ht, by rw [exec_of_storeForm hf, storing_ok ht]; rfl⟩

/-! ## Read-modify-write instructions -/

/-- What a read-modify-write instruction makes of a $00 names a page of memory: RAM, or ROM. -/
theorem rmw_value_zero (op : RmwOp) (carry : Bool) :
    (BitVec.ofNat 8 (op.value carry 0)).toNat < 0x20 ∨ 0x60 ≤ (BitVec.ofNat 8 (op.value carry 0)).toNat := by
  cases op <;> revert carry <;> decide

/-- After the read of a mapped address the result can be written there. At $4014, which reads $00, it starts the OAM DMA of a memory
page. -/
theorem storable_rmw {s t : State} {a : Word} {v : Byte} (op : RmwOp) (carry : Bool) (hmapped : Mapped s a)
    (hread : readByte a s = .ok v t) : Storable t a (BitVec.ofNat 8 (op.value carry v.toNat)) := by
  refine ⟨(mapped_congr (kept_readByte hread).params a).2 hmapped, fun hdma k => ?_⟩
  subst hdma
  rw [readByte_io s (by decide) (by decide), ioRead_of_writeOnly s (by decide)] at hread
  obtain ⟨rfl, -⟩ := Access.ok.inj hread
  exact mapped_of_memoryPage (rmw_value_zero op carry) k

/-- Settles O20: the read of a mapped address, then the write of the rule's result there. -/
theorem readModifyWriteReadsThenWrites : Obligations.ReadModifyWriteReadsThenWrites := by
  intro i op m len base s hf hmapped
  obtain ⟨v, t, hread⟩ := (readByte_ok_iff_mapped _ _).2 hmapped
  obtain ⟨u, hwrite⟩ := writeByte_of_storable (storable_rmw op s.cpu.p.c hmapped hread)
  have hp : t.cpu.p = s.cpu.p := by rw [readByte_cpu hread, State.advance_cpu_p]
  refine ⟨v, t, u, hread, hwrite, ?_⟩
  rw [← rmw_result, ← hp] at hwrite
  rw [exec_of_rmwForm hf, modifying_ok hread hwrite, rmw_flags, rmw_result, hp]
  rfl

end Sys2Proof.Machine
end

section
/-! Register transfers and register steps: one shape, a value into a register with its N and Z (40_load_store_transfer.md R207 to R212;
42_shift_incdec.md R267 to R270). -/

namespace Sys2Proof.Machine

/-- A one-byte instruction of two cycles that loads register `r` with `v`: the CPU afterwards, the rest of the state kept. -/
theorem exec_of_impliedLoad {i : Instr} {f : State → State} (hi : impliedForm i = some (2, f)) {r : Reg8} {v : Byte} {s : State}
    (hf : f (s.advance 1) = loadReg r v (s.advance 1)) :
    exec i s = .next { s with
      cpu := { (s.setReg r v).cpu with pc := s.cpu.pc + 1, cycles := s.cpu.cycles + 2, p := nzOf s.cpu.p v } } := by
  rw [exec_of_impliedForm hi, implied, hf, loadReg, setNZ_eq_nzOf]
  cases r <;> rfl

theorem exec_of_transferForm {i : Instr} {src dst : Reg8} (hi : impliedForm i = some (2, transfer src dst)) (s : State) :
    exec i s = .next { s with
      cpu := { (s.setReg dst (s.getReg src)).cpu with
        pc := s.cpu.pc + 1, cycles := s.cpu.cycles + 2, p := nzOf s.cpu.p (s.getReg src) } } :=
  exec_of_impliedLoad hi (by rw [transfer, State.getReg_advance])

/-- INX, INY, DEX and DEY: the register moves by `d` modulo 256, a step down being one up by 255. -/
theorem exec_of_stepForm {i : Instr} {r : Reg8} {f : Flags → Byte → Byte × Flags} (hi : impliedForm i = some (2, stepReg r f)) {d : Nat}
    (hf : ∀ p v, f p v = (BitVec.ofNat 8 (v.toNat + d), p.setNZ (BitVec.ofNat 8 (v.toNat + d)))) (s : State) :
    exec i s = .next { s with
      cpu := { (s.setReg r (BitVec.ofNat 8 ((s.getReg r).toNat + d))).cpu with
        pc := s.cpu.pc + 1, cycles := s.cpu.cycles + 2, p := nzOf s.cpu.p (BitVec.ofNat 8 ((s.getReg r).toNat + d)) } } :=
  exec_of_impliedLoad hi (by rw [stepReg, hf, State.getReg_advance, loadReg])

theorem inc_eq (p : Flags) (v : Byte) : p.inc v = (BitVec.ofNat 8 (v.toNat + 1), p.setNZ (BitVec.ofNat 8 (v.toNat + 1))) := by
  have hv : v + 1 = BitVec.ofNat 8 (v.toNat + 1) := by bv_omega
  rw [Flags.inc, hv]

theorem dec_eq (p : Flags) (v : Byte) : p.dec v = (BitVec.ofNat 8 (v.toNat + 255), p.setNZ (BitVec.ofNat 8 (v.toNat + 255))) := by
  have hv : v - 1 = BitVec.ofNat 8 (v.toNat + 255) := by bv_omega
  rw [Flags.dec, hv]

/-- TXS, the transfer that writes no flag (40_load_store_transfer.md R212). -/
theorem exec_txs (s : State) :
    exec .txs s = .next { s with cpu := { s.cpu with pc := s.cpu.pc + 1, cycles := s.cpu.cycles + 2, sp := s.cpu.x } } :=
  exec_of_impliedForm (i := .txs) rfl s

/-- Settles O23: five transfers of one form, TXS, and four register steps of one form. -/
theorem registerInstructions : Obligations.RegisterInstructions := by
  refine ⟨⟨rfl, rfl, rfl, rfl, rfl, rfl, rfl, rfl, rfl, rfl⟩, fun s => ⟨?_, ?_, ?_, ?_, ?_, exec_txs s, ?_, ?_, ?_, ?_⟩⟩
  · exact exec_of_transferForm (src := .a) (dst := .x) rfl s
  · exact exec_of_transferForm (src := .a) (dst := .y) rfl s
  · exact exec_of_transferForm (src := .x) (dst := .a) rfl s
  · exact exec_of_transferForm (src := .y) (dst := .a) rfl s
  · exact exec_of_transferForm (src := .sp) (dst := .x) rfl s
  · exact exec_of_stepForm (r := .x) rfl inc_eq s
  · exact exec_of_stepForm (r := .y) rfl inc_eq s
  · exact exec_of_stepForm (r := .x) rfl dec_eq s
  · exact exec_of_stepForm (r := .y) rfl dec_eq s

end Sys2Proof.Machine
end

section
/-! ASL, LSR, ROL and ROR on the accumulator: the computation of the memory forms, on A (42_shift_incdec.md R260 to R264). -/

namespace Sys2Proof.Machine

/-- A one-byte instruction of two cycles that puts A through `op`: A gets the rule's result, the flags its N, Z and C, and the rest of the
state is kept. -/
theorem exec_of_accumulatorForm {i : Instr} {op : RmwOp} (hi : impliedForm i = some (2, stepReg .a op.effect)) (s : State) :
    exec i s = .next { s with
      cpu := { s.cpu with
        pc := s.cpu.pc + 1
        cycles := s.cpu.cycles + 2
        a := BitVec.ofNat 8 (op.value s.cpu.p.c s.cpu.a.toNat)
        p := { nzOf s.cpu.p (BitVec.ofNat 8 (op.value s.cpu.p.c s.cpu.a.toNat)) with c := op.carry s.cpu.p.c s.cpu.a.toNat } } } := by
  rw [exec_of_impliedForm hi, implied, stepReg, rmw_flags, rmw_result]
  rfl

/-- Settles O22: four operations of one form. -/
theorem accumulatorShifts : Obligations.AccumulatorShifts := by
  intro s
  refine ⟨?_, ?_, ?_, ?_⟩
  · exact exec_of_accumulatorForm (op := .opAsl) rfl s
  · exact exec_of_accumulatorForm (op := .opLsr) rfl s
  · exact exec_of_accumulatorForm (op := .opRol) rfl s
  · exact exec_of_accumulatorForm (op := .opRor) rfl s

end Sys2Proof.Machine
end

section
/-! Jumps, calls and returns as whole next states, and what an interrupt's entry leaves on the stack for its return
(43_control_flow.md R290 to R293, R303, R304; 30_encoding.md R152). -/

namespace Sys2Proof.Machine

/-! ## Calls and returns -/

/-- Two pushes, high byte first (43_control_flow.md R290). -/
theorem pushWord_eq (w : Word) (s : State) :
    pushWord w s = { s with ram := pushedWord s.ram s.cpu.sp w, cpu := { s.cpu with sp := s.cpu.sp - 2 } } := by
  have hsp : s.cpu.sp - 1 - 1 = s.cpu.sp - 2 := by bv_omega
  simp only [pushWord, push, pushedWord, stackIndex, hsp]

/-- Two pops, low byte first (43_control_flow.md R293). -/
theorem topWord_eq (s : State) :
    topWord s = wordOf (s.ram.read (0x100 + (s.cpu.sp + 1).toNat)) (s.ram.read (0x100 + (s.cpu.sp + 2).toNat)) := by
  have hsp : s.cpu.sp + 1 + 1 = s.cpu.sp + 2 := by bv_omega
  simp only [topWord, topOfStack, dropTop, stackIndex, hsp]

/-- JSR: the address of its third byte is one below the next instruction's (43_control_flow.md R292). -/
theorem exec_jsr_eq (w : Word) (s : State) :
    exec (.jsr w) s = .next { s with
      ram := pushedWord s.ram s.cpu.sp (s.cpu.pc + 2)
      cpu := { s.cpu with sp := s.cpu.sp - 2, pc := w, cycles := s.cpu.cycles + 6 } } := by
  have hpc : (s.advance 3).cpu.pc - 1 = s.cpu.pc + 2 := by
    change s.cpu.pc + 3 - 1 = s.cpu.pc + 2
    bv_omega
  have hx : exec (.jsr w) s = callSubroutine w (s.advance 3) := rfl
  rw [hx, callSubroutine, hpc, pushWord_eq]
  rfl

/-- RTS: one is added to the popped address (43_control_flow.md R293). -/
theorem exec_rts_eq (s : State) :
    exec .rts s = .next { s with cpu := { s.cpu with
      sp := s.cpu.sp + 2
      cycles := s.cpu.cycles + 6
      pc := BitVec.ofNat 16 ((s.ram.read (0x100 + (s.cpu.sp + 1).toNat)).toNat
        + 256 * (s.ram.read (0x100 + (s.cpu.sp + 2).toNat)).toNat + 1) } } := by
  have hsp : s.cpu.sp + 1 + 1 = s.cpu.sp + 2 := by bv_omega
  have hx : exec .rts s = .next (((dropTop (dropTop (s.advance 1))).setPc (topWord (s.advance 1) + 1)).addCycles 6) := rfl
  rw [hx, topWord_eq, wordOf_eq_ofNat, BitVec.ofNat_add _ 1]
  simp only [dropTop, State.advance, State.setPc, State.addCycles, hsp]
  rfl

/-! ## The indirect jump -/

/-- An indirect jump whose two reads complete. -/
theorem jumpIndirect_ok {ptr : Word} {s t u : State} {lo hi : Byte} (hlo : readByte ptr s = .ok lo t)
    (hhi : readByte (indirectHigh s.params.jmpIndPageWrap ptr) t = .ok hi u) :
    jumpIndirect ptr s = .next ((u.setPc (wordOf lo hi)).addCycles 5) := by
  simp only [jumpIndirect, hlo, hhi]

/-- A completed read of a byte that can be seen without effect gives that byte and keeps the state. -/
theorem readByte_eq_of_peek {a : Word} {s t : State} {v b : Byte} (h : readByte a s = .ok v t) (hb : peek s a = some b) :
    v = b ∧ t = s := by
  rw [readByte_of_peek hb] at h
  cases h
  exact ⟨rfl, rfl⟩

/-- Settles O26: the jumps, the call and the return one by one; for the indirect jump, a read of the pointer's low byte keeps the
parameters, so the high byte is mapped after it too. -/
theorem jumpsCallsAndReturns : Obligations.JumpsCallsAndReturns := by
  refine ⟨fun s w => ⟨rfl, rfl, rfl, rfl, rfl, exec_jsr_eq w s, exec_rts_eq s⟩, fun s ptr => ?_⟩
  intro second hptr hsecond
  obtain ⟨lo, t, hlo⟩ := (readByte_ok_iff_mapped ptr (s.advance 3)).2 hptr
  obtain ⟨hi, u, hhi⟩ := (readByte_ok_iff_mapped second t).2 ((mapped_congr (kept_readByte hlo).params second).2 hsecond)
  refine ⟨lo, hi, t, u, hlo, hhi, fun b hb => readByte_eq_of_peek hlo hb, fun b hb => readByte_eq_of_peek hhi hb, ?_⟩
  rw [← wordOf_eq_ofNat]
  exact jumpIndirect_ok (s := s.advance 3) hlo hhi

/-! ## What an interrupt's entry leaves on the stack -/

/-- The three slots of an entry are distinct, whatever the stack pointer (10_state.md R23). -/
theorem stackSlots_ne (sp : Byte) : sp.toNat ≠ (sp - 1).toNat ∧ sp.toNat ≠ (sp - 2).toNat ∧ (sp - 1).toNat ≠ (sp - 2).toNat := by
  refine ⟨?_, ?_, ?_⟩ <;> bv_omega

section
variable {m : Memory} (hm : m.wf 0x800 = true) (sp : Byte) (ret : Word) (flags : Byte)
include hm

/-- A byte of RAM after an entry, the last push first. -/
theorem read_pushedEntry (k : Nat) :
    (pushedEntry m sp ret flags).read k =
      if k = 0x100 + (sp - 2).toNat then flags
      else if k = 0x100 + (sp - 1).toNat then loByte ret
      else if k = 0x100 + sp.toNat then hiByte ret
      else m.read k := by
  have h0 := Memory.wf_write (b := hiByte ret) hm (show 0x100 + sp.toNat < 0x800 by omega)
  have h1 := Memory.wf_write (b := loByte ret) h0 (show 0x100 + (sp - 1).toNat < 0x800 by omega)
  rw [pushedEntry, pushedWord, Memory.read_write_from h1, Memory.read_write_from h0, Memory.read_write_from hm]

theorem read_pushedEntry_flags : (pushedEntry m sp ret flags).read (0x100 + (sp - 2).toNat) = flags := by
  rw [read_pushedEntry hm, if_pos rfl]

theorem read_pushedEntry_low : (pushedEntry m sp ret flags).read (0x100 + (sp - 1).toNat) = loByte ret := by
  obtain ⟨-, -, h12⟩ := stackSlots_ne sp
  rw [read_pushedEntry hm, if_neg (by omega), if_pos rfl]

theorem read_pushedEntry_high : (pushedEntry m sp ret flags).read (0x100 + sp.toNat) = hiByte ret := by
  obtain ⟨h01, h02, -⟩ := stackSlots_ne sp
  rw [read_pushedEntry hm, if_neg (by omega), if_neg (by omega), if_pos rfl]

/-- An entry writes the stack page only. -/
theorem read_pushedEntry_outside {k : Nat} (hk : ¬ (0x100 ≤ k ∧ k < 0x200)) : (pushedEntry m sp ret flags).read k = m.read k := by
  rw [read_pushedEntry hm, if_neg (by omega), if_neg (by omega), if_neg (by omega)]

end

/-- The six flags of a pushed byte, with B set in the result (43_control_flow.md R304). -/
theorem flags_of_statusByte (p : Flags) (b : Bool) :
    let f := statusByte p b
    (⟨f.getLsbD 7, f.getLsbD 6, true, f.getLsbD 3, f.getLsbD 2, f.getLsbD 1, f.getLsbD 0⟩ : Flags) = { p with b := true } := by
  obtain ⟨n, v, b', d, i, z, c⟩ := p
  revert n v b b' d i z c
  decide

/-- Settles O30: the three bytes RTI pops are the three BRK pushed, from the same slots, and RTI writes no memory. -/
theorem brkThenRti : Obligations.BrkThenRti := by
  intro s t u hm hbrk hrti
  obtain ⟨hram, -⟩ := hm
  obtain ⟨lo, hi, -, -, ht⟩ := brkEntersTheHandler.2 s
  obtain rfl := Host.Outcome.next.inj (hbrk.symm.trans ht)
  obtain rfl := Host.Outcome.next.inj (hrti.symm.trans (rtiRestoresFlagsAndPc.2 _))
  refine ⟨?_, fun k hk => read_pushedEntry_outside hram _ _ _ hk⟩
  have hsp1 : s.cpu.sp - 3 + 1 = s.cpu.sp - 2 := by bv_omega
  have hsp2 : s.cpu.sp - 3 + 2 = s.cpu.sp - 1 := by bv_omega
  have hsp3 : s.cpu.sp - 3 + 3 = s.cpu.sp := by bv_omega
  simp only [hsp1, hsp2, hsp3, read_pushedEntry_flags hram, read_pushedEntry_low hram, read_pushedEntry_high hram, flags_of_statusByte,
    ← wordOf_eq_ofNat, wordOf_loByte_hiByte]

end Sys2Proof.Machine
end

section
/-! The flag instructions and NOP, the pushes and the pulls, as whole next states (44_stack_flags_nop.md R330 to R342). -/

namespace Sys2Proof.Machine

/-! ## Flags -/

/-- A one-byte instruction of two cycles that puts the flags through `g`, the rest of the state kept. -/
theorem exec_of_flagForm {i : Instr} {g : Flags → Flags} (hi : impliedForm i = some (2, fun s => s.setFlags (g s.cpu.p))) (s : State) :
    exec i s = .next { s with
      cpu := { s.cpu with pc := s.cpu.pc + 1, cycles := s.cpu.cycles + 2, p := g s.cpu.p } } :=
  exec_of_impliedForm hi s

/-- NOP moves PC and the cycle count only (44_stack_flags_nop.md R342). -/
theorem exec_nop (s : State) :
    exec .nop s = .next { s with cpu := { s.cpu with pc := s.cpu.pc + 1, cycles := s.cpu.cycles + 2 } } :=
  exec_of_impliedForm (i := .nop) rfl s

/-- Settles O24: seven writes of one flag, of one form, and NOP. -/
theorem flagInstructionsAndNop : Obligations.FlagInstructionsAndNop := by
  refine ⟨⟨rfl, rfl, rfl, rfl, rfl, rfl, rfl, rfl⟩, fun s => ⟨?_, ?_, ?_, ?_, ?_, ?_, ?_, exec_nop s⟩⟩
  · exact exec_of_flagForm (g := fun p => { p with c := false }) rfl s
  · exact exec_of_flagForm (g := fun p => { p with c := true }) rfl s
  · exact exec_of_flagForm (g := fun p => { p with i := false }) rfl s
  · exact exec_of_flagForm (g := fun p => { p with i := true }) rfl s
  · exact exec_of_flagForm (g := fun p => { p with v := false }) rfl s
  · exact exec_of_flagForm (g := fun p => { p with d := false }) rfl s
  · exact exec_of_flagForm (g := fun p => { p with d := true }) rfl s

/-! ## The stack -/

/-- A one-byte instruction of three cycles that pushes a byte of the CPU: the byte goes to the slot SP names, and SP moves down
(44_stack_flags_nop.md R330). -/
theorem exec_of_pushForm {i : Instr} {v : Cpu → Byte} (hi : impliedForm i = some (3, fun s => push (v s.cpu) s)) (s : State) :
    exec i s = .next { s with
      ram := s.ram.write (0x100 + s.cpu.sp.toNat) (v (s.advance 1).cpu)
      cpu := { s.cpu with pc := s.cpu.pc + 1, sp := s.cpu.sp - 1, cycles := s.cpu.cycles + 3 } } :=
  exec_of_impliedForm hi s

/-- PHP pushes the flags with B and bit 5 set (44_stack_flags_nop.md R333). -/
theorem exec_php (s : State) :
    exec .php s = .next { s with
      ram := s.ram.write (0x100 + s.cpu.sp.toNat) (statusByte s.cpu.p true)
      cpu := { s.cpu with pc := s.cpu.pc + 1, sp := s.cpu.sp - 1, cycles := s.cpu.cycles + 3 } } := by
  rw [← pack_eq_statusByte]
  exact exec_of_pushForm (i := .php) (v := fun c => c.p.pack true) rfl s

/-- PLA loads A, with its N and Z, from the slot above SP (44_stack_flags_nop.md R332). -/
theorem exec_pla (s : State) :
    exec .pla s = .next { s with cpu := { s.cpu with
      pc := s.cpu.pc + 1
      a := s.ram.read (0x100 + (s.cpu.sp + 1).toNat)
      p := nzOf s.cpu.p (s.ram.read (0x100 + (s.cpu.sp + 1).toNat))
      sp := s.cpu.sp + 1
      cycles := s.cpu.cycles + 4 } } := by
  rw [← setNZ_eq_nzOf]
  exact exec_of_impliedForm (i := .pla) rfl s

/-- PLP takes the six flags from the slot above SP and keeps the stored B (44_stack_flags_nop.md R334). -/
theorem exec_plp (s : State) :
    exec .plp s = .next { s with cpu := { s.cpu with
      pc := s.cpu.pc + 1
      p := s.cpu.p.unpack (s.ram.read (0x100 + (s.cpu.sp + 1).toNat))
      sp := s.cpu.sp + 1
      cycles := s.cpu.cycles + 4 } } :=
  exec_of_impliedForm (i := .plp) rfl s

/-- Settles O25: two pushes of one form, of A and of the packed flags, and the two pulls. -/
theorem stackInstructions : Obligations.StackInstructions :=
  ⟨⟨rfl, rfl, rfl, rfl⟩, fun s => ⟨exec_of_pushForm (v := Cpu.a) rfl s, exec_php s, exec_pla s, exec_plp s⟩⟩

end Sys2Proof.Machine
end

section
/-! The PPU's eight registers as the CPU sees them (50_ppu.md R401, R410 to R419). -/

namespace Sys2Proof.Machine

/-! ## The status register -/

/-- The status byte: three flags above five zeros (50_ppu.md R412). -/
theorem statusFlags_eq_append (v h o : Bool) :
    BitVec.ofNat 8 (bit01 v * 0x80 + bit01 h * 0x40 + bit01 o * 0x20) =
      BitVec.ofBool v ++ BitVec.ofBool h ++ BitVec.ofBool o ++ (0 : BitVec 5) := by
  revert v h o
  decide

/-- Settles O46: every mirror of $2002 reaches register 2. -/
theorem statusReadClearsVblankAndToggle : Obligations.StatusReadClearsVblankAndToggle := by
  intro s a h0 h1 h2
  rw [readByte_ppu s h0 (by omega), h2, ← statusFlags_eq_append]
  rfl

/-! ## The bits of `t` after a write -/

/-- Control's two low bits are bits 11 and 10 of `t` (50_ppu.md R410). -/
theorem writeCtrl_t_bit (p : Ppu) (v : Byte) {k : Nat} (hk : k < 15) :
    (p.writeCtrl v).t.getLsbD k =
      if k = 10 then v.getLsbD 0 else if k = 11 then v.getLsbD 1 else p.t.getLsbD k := by
  interval_cases k <;> simp [Ppu.writeCtrl]

/-- The first scroll write: coarse X in bits 4 to 0 (50_ppu.md R415). -/
theorem writeScroll_t_bit_first {p : Ppu} (v : Byte) (hw : p.w = false) {k : Nat} (hk : k < 15) :
    (p.writeScroll v).t.getLsbD k = if k < 5 then v.getLsbD (k + 3) else p.t.getLsbD k := by
  interval_cases k <;> simp [Ppu.writeScroll, hw]

/-- The first scroll write's fine X (50_ppu.md R415). -/
theorem writeScroll_x_first {p : Ppu} (v : Byte) (hw : p.w = false) : (p.writeScroll v).x = BitVec.ofNat 3 (v.toNat % 8) := by
  have hv : (p.writeScroll v).x = (v &&& 7).setWidth 3 := by simp [Ppu.writeScroll, hw]
  rw [hv]
  apply BitVec.eq_of_toNat_eq
  rw [BitVec.toNat_setWidth, BitVec.toNat_and, BitVec.toNat_ofNat]
  exact congrArg (· % 8) (Nat.and_two_pow_sub_one_eq_mod v.toNat 3)

/-- The second scroll write: fine Y in bits 14 to 12, coarse Y in bits 9 to 5 (50_ppu.md R415). -/
theorem writeScroll_t_bit_second {p : Ppu} (v : Byte) (hw : p.w = true) {k : Nat} (hk : k < 15) :
    (p.writeScroll v).t.getLsbD k =
      if 12 ≤ k then v.getLsbD (k - 12) else if 5 ≤ k ∧ k < 10 then v.getLsbD (k - 2) else p.t.getLsbD k := by
  interval_cases k <;> simp [Ppu.writeScroll, hw]

/-- The first address write: bits 13 to 8, with bit 14 cleared (50_ppu.md R416). -/
theorem writeAddr_t_bit_first {p : Ppu} (v : Byte) (hw : p.w = false) {k : Nat} (hk : k < 15) :
    (p.writeAddr v).t.getLsbD k =
      if k = 14 then false else if 8 ≤ k then v.getLsbD (k - 8) else p.t.getLsbD k := by
  interval_cases k <;> simp [Ppu.writeAddr, hw]

/-- The second address write: bits 7 to 0 (50_ppu.md R416). -/
theorem writeAddr_t_bit_second {p : Ppu} (v : Byte) (hw : p.w = true) {k : Nat} (hk : k < 15) :
    (p.writeAddr v).t.getLsbD k = if k < 8 then v.getLsbD k else p.t.getLsbD k := by
  interval_cases k <;> simp [Ppu.writeAddr, hw]

/-! ## What each register write leaves -/

/-- A scroll write changes `t`, `x` and the toggle only. -/
theorem writeScroll_frame (p : Ppu) (v : Byte) :
    p.writeScroll v = { p with t := (p.writeScroll v).t, x := (p.writeScroll v).x, w := !p.w } := by
  cases hw : p.w <;> simp [Ppu.writeScroll, hw]

/-- An address write changes `t`, `v` and the toggle only. -/
theorem writeAddr_frame (p : Ppu) (v : Byte) :
    p.writeAddr v = { p with t := (p.writeAddr v).t, v := (p.writeAddr v).v, w := !p.w } := by
  cases hw : p.w <;> simp [Ppu.writeAddr, hw]

/-- The OAM data port steps its address by one, modulo 256 (50_ppu.md R414). -/
theorem writeOam_eq (p : Ppu) (v : Byte) :
    p.writeOam v = { p with oam := p.oam.write p.oamaddr.toNat v, oamaddr := BitVec.ofNat 8 (p.oamaddr.toNat + 1) } := by
  have h : p.oamaddr + 1 = BitVec.ofNat 8 (p.oamaddr.toNat + 1) := BitVec.eq_of_toNat_eq (by simp)
  rw [← h]
  rfl

/-- Settles O47: each of the seven addresses reaches its register, whose writes are given by their bits and their frame. -/
theorem scrollAndAddressWrites : Obligations.ScrollAndAddressWrites := by
  intro s v
  refine ⟨⟨s.ppu.writeCtrl v, writeByte_ppu v s (by decide) (by decide), rfl, fun _ => writeCtrl_t_bit s.ppu v⟩,
    writeByte_ppu v s (by decide) (by decide), writeByte_ppu v s (by decide) (by decide),
    writeByte_ppu v s (by decide) (by decide), ?_, readByte_ppu s (by decide) (by decide), ?_,
    ⟨s.ppu.writeScroll v, writeByte_ppu v s (by decide) (by decide), writeScroll_frame s.ppu v, fun hw => ?_, fun hw => ?_⟩,
    ⟨s.ppu.writeAddr v, writeByte_ppu v s (by decide) (by decide), writeAddr_frame s.ppu v, fun hw => ?_, fun hw => ?_⟩⟩
  · rw [← writeOam_eq]
    exact writeByte_ppu v s (by decide) (by decide)
  · intro a ha
    simp only [List.mem_cons, List.not_mem_nil, or_false] at ha
    rcases ha with rfl | rfl | rfl | rfl | rfl <;> exact readByte_ppu s (by decide) (by decide)
  · exact ⟨writeScroll_x_first v hw, fun _ => writeScroll_t_bit_first v hw⟩
  · exact ⟨by simp [Ppu.writeScroll, hw], fun _ => writeScroll_t_bit_second v hw⟩
  · exact ⟨by simp [Ppu.writeAddr, hw], fun _ => writeAddr_t_bit_first v hw⟩
  · exact ⟨by simp [Ppu.writeAddr, hw], fun _ => writeAddr_t_bit_second v hw⟩

/-! ## The data port -/

/-- The data port's address is `v` modulo the PPU space's size (20_memory.md R120). -/
theorem vramAddress_toNat (v : BitVec 15) : (v &&& 0x3FFF).toNat = v.toNat % 0x4000 :=
  Nat.and_two_pow_sub_one_eq_mod v.toNat 14

/-- `v` steps by 1 or by 32, modulo 2^15 (50_ppu.md R402). -/
theorem add_vinc (p : Ppu) : p.v + p.vinc = BitVec.ofNat 15 (p.v.toNat + if p.ctrl.getLsbD 2 then 32 else 1) := by
  unfold Ppu.vinc
  split <;> simp [BitVec.ofNat_add]

/-- A read of $2007 is a read of the data port. -/
theorem readByte_vramData (s : State) : readByte 0x2007 s = .ok (readVramData s).1 (readVramData s).2 :=
  readByte_ppu s (by decide) (by decide)

/-- Below $3F00 the buffer answers and is refilled (50_ppu.md R417). -/
theorem readVramData_buffered {s : State} (h : s.ppu.v.toNat % 0x4000 < 0x3F00) :
    readVramData s =
      (s.ppu.readBuffer, s.withPpu { s.ppu with readBuffer := ppuRead s (s.ppu.v.toNat % 0x4000), v := s.ppu.v + s.ppu.vinc }) := by
  simp only [readVramData, vramAddress_toNat, if_pos h]

/-- In the palette the byte comes at once, and the buffer is refilled from the nametable below (50_ppu.md R417). -/
theorem readVramData_palette {s : State} (h : 0x3F00 ≤ s.ppu.v.toNat % 0x4000) :
    readVramData s =
      (ppuRead s (s.ppu.v.toNat % 0x4000),
        s.withPpu { s.ppu with readBuffer := ppuRead s (s.ppu.v.toNat % 0x4000 - 0x1000), v := s.ppu.v + s.ppu.vinc }) := by
  simp only [readVramData, vramAddress_toNat, if_neg (Nat.not_lt.mpr h)]

/-- A write of $2007 is a write of the PPU space at `v`, and a step of `v` (50_ppu.md R418). -/
theorem writeByte_vramData (b : Byte) (s : State) :
    writeByte 0x2007 b s = .ok () { ppuWrite (s.ppu.v.toNat % 0x4000) b s with
      ppu := { (ppuWrite (s.ppu.v.toNat % 0x4000) b s).ppu with v := s.ppu.v + s.ppu.vinc } } := by
  rw [← vramAddress_toNat]
  exact writeByte_ppu b s (by decide) (by decide)

/-- Settles O48: the two sides of $3F00, and the write. -/
theorem vramDataPort : Obligations.VramDataPort := by
  intro s b
  dsimp only
  rw [← add_vinc]
  refine ⟨fun h => ?_, fun h => ?_, writeByte_vramData b s⟩
  · rw [readByte_vramData, readVramData_buffered h]
    rfl
  · rw [readByte_vramData, readVramData_palette h]
    rfl

end Sys2Proof.Machine
end

section
/-! The loopy counters field by field (50_ppu.md R432, R433). -/

namespace Sys2Proof.Machine

/-! ## Fields of the scroll register -/

/-- Two words agree on a field when they agree on its bits. -/
theorem field_congr {u v : BitVec 15} (lo lo' len : Nat) (h : ∀ i, i < len → u.getLsbD (lo + i) = v.getLsbD (lo' + i)) :
    u.toNat / 2 ^ lo % 2 ^ len = v.toNat / 2 ^ lo' % 2 ^ len := by
  apply Nat.eq_of_testBit_eq
  intro i
  rw [Nat.testBit_mod_two_pow, Nat.testBit_mod_two_pow, Nat.testBit_div_two_pow, Nat.testBit_div_two_pow]
  by_cases hi : i < len
  · have hb := h i hi
    simp only [BitVec.getLsbD, Nat.add_comm _ i] at hb
    rw [hb]
  · simp only [hi, decide_false, Bool.false_and]

theorem coarseX_congr {u v : BitVec 15} (h : ∀ i, i < 5 → u.getLsbD i = v.getLsbD i) : u.toNat % 32 = v.toNat % 32 := by
  simpa using field_congr 0 0 5 (by simpa using h)

theorem coarseY_congr {u v : BitVec 15} (h : ∀ i, i < 5 → u.getLsbD (5 + i) = v.getLsbD (5 + i)) :
    u.toNat / 32 % 32 = v.toNat / 32 % 32 := field_congr 5 5 5 h

theorem fineY_congr {u v : BitVec 15} (h : ∀ i, i < 3 → u.getLsbD (12 + i) = v.getLsbD (12 + i)) :
    u.toNat / 4096 = v.toNat / 4096 := by
  have e : u.toNat / 4096 % 8 = v.toNat / 4096 % 8 := field_congr 12 12 3 h
  omega

/-! ## Coarse X -/

theorem coarseX_full_iff (v : BitVec 15) : v &&& 0x001F = 31 ↔ v.toNat % 32 = 31 := by
  have h : (v &&& 0x001F).toNat = v.toNat % 32 := Nat.and_two_pow_sub_one_eq_mod v.toNat 5
  rw [← h]
  exact BitVec.toNat_inj.symm

/-- R432, field by field: coarse X steps modulo 32, its wrap toggles the horizontal nametable bit, the other fields are kept. -/
theorem coarseXIncrement_fields (v : BitVec 15) :
    (coarseXIncrement v).toNat % 32 = (v.toNat % 32 + 1) % 32 ∧
    (coarseXIncrement v).getLsbD 10 = (v.getLsbD 10 ^^ decide (v.toNat % 32 = 31)) ∧
    (coarseXIncrement v).toNat / 32 % 32 = v.toNat / 32 % 32 ∧ (coarseXIncrement v).toNat / 4096 = v.toNat / 4096 ∧
    (coarseXIncrement v).getLsbD 11 = v.getLsbD 11 := by
  by_cases h : v.toNat % 32 = 31
  · have e : coarseXIncrement v = (v &&& 0x7FE0) ^^^ 0x0400 := if_pos ((coarseX_full_iff v).mpr h)
    rw [e, h]
    refine ⟨coarseX_congr (v := 0) fun i hi => ?_, ?_, coarseY_congr fun i hi => ?_, fineY_congr fun i hi => ?_, ?_⟩
    · interval_cases i <;> simp
    · simp
    · interval_cases i <;> simp
    · interval_cases i <;> simp
    · simp
  · have e : coarseXIncrement v = v + 1 := if_neg fun hf => h ((coarseX_full_iff v).mp hf)
    have hn : (v + 1).toNat = v.toNat + 1 := by bv_omega
    simp only [e, BitVec.getLsbD, Nat.testBit_eq_decide_div_mod_eq, hn, h, decide_false, Bool.xor_false]
    refine ⟨by omega, ?_, by omega, by omega, ?_⟩ <;> rw [decide_eq_decide] <;> omega

/-! ## Coarse Y and fine Y -/

theorem fineY_full_iff (v : BitVec 15) : v &&& 0x7000 = (0x7000 : BitVec 15) ↔ v.toNat / 4096 = 7 := by
  have h : v &&& (0x7000 : BitVec 15) = (v >>> 12) <<< 12 := by
    apply BitVec.eq_of_getLsbD_eq
    intro k hk
    interval_cases k <;> simp
  have hn : ((v >>> 12) <<< 12).toNat = v.toNat / 4096 * 4096 := by
    rw [BitVec.toNat_shiftLeft, BitVec.toNat_ushiftRight, Nat.shiftLeft_eq, Nat.shiftRight_eq_div_pow]
    omega
  rw [h, ← BitVec.toNat_inj, hn]
  show _ = 7 * 4096 ↔ _
  omega

/-- The coarse Y that the increment looks at, fine Y masked off. -/
theorem coarseYBits_toNat (v : BitVec 15) : (((v &&& 0x0FFF) >>> 5) &&& 0x1F).toNat = v.toNat / 32 % 32 := by
  have h : ((v &&& 0x0FFF) >>> 5).toNat = v.toNat % 4096 / 32 := by
    rw [BitVec.toNat_ushiftRight, Nat.shiftRight_eq_div_pow]
    exact congrArg (· / 32) (Nat.and_two_pow_sub_one_eq_mod v.toNat 12)
  have e : (((v &&& 0x0FFF) >>> 5) &&& 0x1F).toNat = ((v &&& 0x0FFF) >>> 5).toNat % 32 := Nat.and_two_pow_sub_one_eq_mod _ 5
  rw [e, h]
  omega

theorem coarseYBits_eq_iff (v n : BitVec 15) : ((v &&& 0x0FFF) >>> 5) &&& 0x1F = n ↔ v.toNat / 32 % 32 = n.toNat := by
  rw [← BitVec.toNat_inj, coarseYBits_toNat]

theorem yIncrement_of_fineY_ne {v : BitVec 15} (h : v.toNat / 4096 ≠ 7) : yIncrement v = v + 0x1000 :=
  if_pos fun hf => h ((fineY_full_iff v).mp hf)

/-- The word a carry out of fine Y leaves: fine Y zero, coarse Y as given, the vertical nametable bit toggled if asked. -/
def carriedY (v : BitVec 15) (toggle : Bool) (y : BitVec 15) : BitVec 15 :=
  (((v &&& 0x0FFF) ^^^ (if toggle then 0x0800 else 0)) &&& 0x7C1F) ||| (y <<< 5)

/-- Past fine Y 7 the increment carries into coarse Y, by its three cases (50_ppu.md R433). -/
theorem yIncrement_of_fineY_full {v : BitVec 15} (h : v.toNat / 4096 = 7) :
    yIncrement v = carriedY v (decide (v.toNat / 32 % 32 = 29))
      (if v.toNat / 32 % 32 = 29 ∨ v.toNat / 32 % 32 = 31 then 0 else (((v &&& 0x0FFF) >>> 5) &&& 0x1F) + 1) := by
  have hf : ¬ (v &&& 0x7000 ≠ (0x7000 : BitVec 15)) := not_not_intro ((fineY_full_iff v).mpr h)
  unfold yIncrement carriedY
  rw [if_neg hf]
  dsimp only
  by_cases h29 : v.toNat / 32 % 32 = 29
  · rw [if_pos ((coarseYBits_eq_iff v 29).mpr h29)]
    simp [h29]
  rw [if_neg (mt (coarseYBits_eq_iff v 29).mp h29)]
  by_cases h31 : v.toNat / 32 % 32 = 31
  · rw [if_pos ((coarseYBits_eq_iff v 31).mpr h31)]
    simp [h31]
  · rw [if_neg (mt (coarseYBits_eq_iff v 31).mp h31)]
    simp [h29, h31]

theorem carriedY_fields (v : BitVec 15) (toggle : Bool) {y : BitVec 15} (hy : y.toNat < 32) :
    (carriedY v toggle y).toNat / 4096 = 0 ∧ (carriedY v toggle y).toNat / 32 % 32 = y.toNat ∧
    (carriedY v toggle y).getLsbD 11 = (v.getLsbD 11 ^^ toggle) ∧
    (carriedY v toggle y).toNat % 32 = v.toNat % 32 ∧ (carriedY v toggle y).getLsbD 10 = v.getLsbD 10 := by
  have high : ∀ k (hk : k < 15), 5 ≤ k → y[k] = false := fun k _ h5 =>
    Nat.testBit_eq_false_of_lt (Nat.lt_of_lt_of_le hy (Nat.pow_le_pow_right (n := 2) (by decide) h5))
  have hY : (carriedY v toggle y).toNat / 32 % 32 = y.toNat / 2 ^ 0 % 2 ^ 5 :=
    field_congr 5 0 5 fun i hi => by interval_cases i <;> simp [carriedY]
  refine ⟨fineY_congr (v := 0) fun i hi => ?_, by omega, ?_, coarseX_congr fun i hi => ?_, ?_⟩
  · interval_cases i <;> cases toggle <;> simp [carriedY, high]
  · cases toggle <;> simp [carriedY, high]
  · interval_cases i <;> cases toggle <;> simp [carriedY]
  · cases toggle <;> simp [carriedY, high]

/-- R433, field by field: fine Y steps, its carry steps coarse Y, which wraps at 29 toggling the vertical nametable bit and at 31
without, and the other fields are kept. -/
theorem yIncrement_fields (v : BitVec 15) :
    (yIncrement v).toNat / 4096 = (v.toNat / 4096 + 1) % 8 ∧
    (yIncrement v).toNat / 32 % 32 =
      (if v.toNat / 4096 < 7 then v.toNat / 32 % 32
       else if v.toNat / 32 % 32 = 29 ∨ v.toNat / 32 % 32 = 31 then 0 else v.toNat / 32 % 32 + 1) ∧
    (yIncrement v).getLsbD 11 = (v.getLsbD 11 ^^ decide (v.toNat / 4096 = 7 ∧ v.toNat / 32 % 32 = 29)) ∧
    (yIncrement v).toNat % 32 = v.toNat % 32 ∧ (yIncrement v).getLsbD 10 = v.getLsbD 10 := by
  by_cases hf : v.toNat / 4096 = 7
  · rw [yIncrement_of_fineY_full hf]
    simp only [hf, lt_irrefl, if_false, true_and]
    by_cases hw : v.toNat / 32 % 32 = 29 ∨ v.toNat / 32 % 32 = 31
    · rw [if_pos hw, if_pos hw]
      exact carriedY_fields v _ (by decide)
    · have hs : ((((v &&& 0x0FFF) >>> 5) &&& 0x1F) + 1).toNat = v.toNat / 32 % 32 + 1 := by
        rw [BitVec.toNat_add, coarseYBits_toNat]
        show (_ + 1) % 2 ^ 15 = _
        omega
      rw [if_neg hw, if_neg hw, ← hs]
      exact carriedY_fields v _ (by omega)
  · have hn : (v + 0x1000).toNat = v.toNat + 0x1000 := by bv_omega
    simp only [yIncrement_of_fineY_ne hf, BitVec.getLsbD, Nat.testBit_eq_decide_div_mod_eq, hn, hf, false_and, decide_false, Bool.xor_false]
    rw [if_pos (by omega)]
    refine ⟨by omega, by omega, ?_, by omega, ?_⟩ <;> rw [decide_eq_decide] <;> omega

end Sys2Proof.Machine
end

section
/-! One PPU cycle (50_ppu.md R420 to R424, R430, R433, R450 to R453): what each stage leaves unchanged, the inversion of a whole cycle,
and what follows for the place in the frame, the status flags, the NMI input and the scroll register. -/

namespace Sys2Proof.Machine

/-! ## The stages of a cycle -/

theorem clearFlags_of_not {s : State} (h : ¬ (s.ppu.scanline = 261 ∧ s.ppu.cycle = 1)) : clearFlags s = s := if_neg h

theorem clearFlags_at {s : State} (hl : s.ppu.scanline = 261) (hc : s.ppu.cycle = 1) :
    clearFlags s = s.withPpu { s.ppu with vblank := false, sprite0Hit := false, spriteOverflow := false } := if_pos ⟨hl, hc⟩

theorem startVblank_of_not {s : State} (h : ¬ (s.ppu.scanline = 241 ∧ s.ppu.cycle = 1)) : startVblank s = s := if_neg h

/-- The NMI input is the CPU's: it commutes with a change of the PPU. -/
theorem triggerNmi_withPpu (s : State) (p : Ppu) : triggerNmi (s.withPpu p) = (triggerNmi s).withPpu p := by
  unfold triggerNmi
  cases h : s.params.nmiDelayPolicy <;> simp only [State.withPpu, h]

/-- At (241, 1) vblank rises, and the NMI input is signalled if ctrl bit 7 is set (50_ppu.md R423). -/
theorem startVblank_at {s : State} (hl : s.ppu.scanline = 241) (hc : s.ppu.cycle = 1) :
    startVblank s = (if s.ppu.ctrl.getLsbD 7 then triggerNmi s else s).withPpu { s.ppu with vblank := true } := by
  simp only [startVblank, if_pos (And.intro hl hc), State.withPpu_ppu, triggerNmi_withPpu]
  by_cases h : s.ppu.ctrl.getLsbD 7 = true
  · simp only [if_pos h]
  · simp only [if_neg h]

/-- The start of vblank touches one flag of the PPU. -/
theorem startVblank_ppu (s : State) : ∃ b, (startVblank s).ppu = { s.ppu with vblank := b } := by
  by_cases h : s.ppu.scanline = 241 ∧ s.ppu.cycle = 1
  · exact ⟨true, by rw [startVblank_at h.1 h.2]; rfl⟩
  · exact ⟨s.ppu.vblank, by rw [startVblank_of_not h]⟩

/-- The two timed events touch the three status flags only, as far as the PPU goes (50_ppu.md R422, R423). -/
theorem startVblank_clearFlags_ppu (s : State) :
    ∃ b h o, (startVblank (clearFlags s)).ppu = { s.ppu with vblank := b, sprite0Hit := h, spriteOverflow := o } := by
  obtain ⟨b, hb⟩ := startVblank_ppu (clearFlags s)
  rw [hb]
  by_cases hc : s.ppu.scanline = 261 ∧ s.ppu.cycle = 1
  · exact ⟨b, false, false, by rw [clearFlags_at hc.1 hc.2]; rfl⟩
  · exact ⟨b, s.ppu.sprite0Hit, s.ppu.spriteOverflow, by rw [clearFlags_of_not hc]⟩

/-- A visible pixel goes to the frame and may set sprite-0 hit, never clear it; below the picture nothing happens
(50_ppu.md R451, R453). -/
theorem visiblePixel_eq (s : State) : ∃ h f, (239 < s.ppu.scanline → h = false) ∧
    visiblePixel s = s.withPpu { s.ppu with sprite0Hit := s.ppu.sprite0Hit || h, frame := f } := by
  unfold visiblePixel
  split
  · exact ⟨_, _, fun _ => by omega, rfl⟩
  · exact ⟨false, s.ppu.frame, fun _ => rfl, by rw [Bool.or_false]; rfl⟩

/-- Sprite work fills the snapshot and its counts only (50_ppu.md R440). -/
theorem spriteWork_eq (s : State) : ∃ m c, spriteWork s = s.withPpu { s.ppu with sprSnap := m, sprCount := c } := by
  unfold spriteWork
  split
  · exact ⟨_, _, rfl⟩
  · exact ⟨s.ppu.sprSnap, s.ppu.sprCount, rfl⟩

theorem ppuCycle_eq (s : State) : ppuCycle s =
    (spriteWork (backgroundWork (visiblePixel (startVblank (clearFlags s))))).withPpu
      (spriteWork (backgroundWork (visiblePixel (startVblank (clearFlags s))))).ppu.advance := rfl

/-- The inversion of a PPU cycle: after the two timed events only `v`, the background queue, the frame and the sprite memories change,
sprite-0 hit may rise on a visible scanline, and the place in the frame moves on (50_ppu.md R420). -/
theorem ppuCycle_cases (s : State) : ∃ v q h f m c, (239 < s.ppu.scanline → h = false) ∧ ppuCycle s =
    (startVblank (clearFlags s)).withPpu (Ppu.advance { (startVblank (clearFlags s)).ppu with
      v := v, bgq := q, sprite0Hit := (startVblank (clearFlags s)).ppu.sprite0Hit || h, frame := f, sprSnap := m, sprCount := c }) := by
  have hl : (startVblank (clearFlags s)).ppu.scanline = s.ppu.scanline := by
    obtain ⟨b, h, o, e⟩ := startVblank_clearFlags_ppu s
    rw [e]
  rw [ppuCycle_eq, ← hl]
  generalize startVblank (clearFlags s) = e
  obtain ⟨h, f, hh, hp⟩ := visiblePixel_eq e
  obtain ⟨v, q, hb⟩ := backgroundWork_eq (visiblePixel e)
  obtain ⟨m, c, hs⟩ := spriteWork_eq (backgroundWork (visiblePixel e))
  rw [hs, hb, hp]
  exact ⟨v, q, h, f, m, c, hh, rfl⟩

/-! ## The place in the frame -/

/-- Inside a scanline only the cycle moves on. -/
theorem Ppu.advance_of_ne {p : Ppu} (h : p.cycle + 1 ≠ 341) : p.advance = { p with cycle := p.cycle + 1 } := if_neg h

theorem Ppu.advance_scanline (p : Ppu) : p.advance.scanline =
    if p.cycle + 1 = 341 then (if p.scanline + 1 = 262 then 0 else p.scanline + 1) else p.scanline := by
  unfold Ppu.advance
  split <;> rfl

theorem Ppu.advance_cycle (p : Ppu) : p.advance.cycle = if p.cycle + 1 = 341 then 0 else p.cycle + 1 := by
  unfold Ppu.advance
  split <;> rfl

/-- Advancing changes the place in the frame only (50_ppu.md R421). -/
theorem Ppu.advance_frame (p : Ppu) : p.advance = { p with scanline := p.advance.scanline, cycle := p.advance.cycle } := by
  unfold Ppu.advance
  split <;> rfl

theorem Ppu.advance_vblank (p : Ppu) : p.advance.vblank = p.vblank := by rw [Ppu.advance_frame]
theorem Ppu.advance_sprite0Hit (p : Ppu) : p.advance.sprite0Hit = p.sprite0Hit := by rw [Ppu.advance_frame]
theorem Ppu.advance_spriteOverflow (p : Ppu) : p.advance.spriteOverflow = p.spriteOverflow := by rw [Ppu.advance_frame]
theorem Ppu.advance_v (p : Ppu) : p.advance.v = p.v := by rw [Ppu.advance_frame]

/-- A PPU cycle advances the place in the frame as `Ppu.advance` does. -/
theorem ppuCycle_place (s : State) :
    (ppuCycle s).ppu.scanline = s.ppu.advance.scanline ∧ (ppuCycle s).ppu.cycle = s.ppu.advance.cycle := by
  obtain ⟨v, q, h, f, m, c, -, e⟩ := ppuCycle_cases s
  obtain ⟨b, h', o, hp⟩ := startVblank_clearFlags_ppu s
  rw [e, hp]
  simp only [State.withPpu_ppu, Ppu.advance_scanline, Ppu.advance_cycle, and_self]

/-- Inside the frame, one cycle on is one place on, modulo the frame's 262 × 341 places (50_ppu.md R421). -/
theorem Ppu.advance_position {p : Ppu} (hl : p.scanline ≤ 261) (hc : p.cycle ≤ 340) :
    p.advance.position = (p.position + 1) % 89342 ∧ p.advance.scanline ≤ 261 ∧ p.advance.cycle ≤ 340 := by
  unfold Ppu.position
  rw [Ppu.advance_scanline, Ppu.advance_cycle]
  by_cases h1 : p.cycle + 1 = 341
  · by_cases h2 : p.scanline + 1 = 262
    · simp only [if_pos h1, if_pos h2]; omega
    · simp only [if_pos h1, if_neg h2]; omega
  · simp only [if_neg h1]; omega

/-- Settles O51: a cycle's place is `Ppu.advance`'s, which is the next one. -/
theorem frameHas89342Cycles : Obligations.FrameHas89342Cycles := by
  refine ⟨fun s hl hc => ?_, fun _ => ⟨rfl, rfl⟩⟩
  obtain ⟨h1, h2⟩ := ppuCycle_place s
  unfold Ppu.position
  rw [h1, h2]
  exact Ppu.advance_position hl hc

/-! ## Vblank, the NMI input and the status flags -/

/-- What a cycle does to the status flags, the CPU and the draws is what its two timed events do, but for a rise of sprite-0 hit
on a visible scanline. -/
theorem ppuCycle_events (s : State) : ∃ h, (239 < s.ppu.scanline → h = false) ∧
    (ppuCycle s).ppu.vblank = (startVblank (clearFlags s)).ppu.vblank ∧
    (ppuCycle s).ppu.sprite0Hit = ((startVblank (clearFlags s)).ppu.sprite0Hit || h) ∧
    (ppuCycle s).ppu.spriteOverflow = (startVblank (clearFlags s)).ppu.spriteOverflow ∧
    (ppuCycle s).cpu = (startVblank (clearFlags s)).cpu ∧ (ppuCycle s).draws = (startVblank (clearFlags s)).draws := by
  obtain ⟨v, q, h, f, m, c, hh, e⟩ := ppuCycle_cases s
  rw [e]
  exact ⟨h, hh, Ppu.advance_vblank _, Ppu.advance_sprite0Hit _, Ppu.advance_spriteOverflow _, rfl, rfl⟩

/-- Settles O50: the two events at their places, and their absence elsewhere. -/
theorem vblankAndNmi : Obligations.VblankAndNmi := by
  intro s
  obtain ⟨h, hh, hvblank, hhit, hoverflow, hcpu, hdraws⟩ := ppuCycle_events s
  rw [hvblank, hhit, hoverflow, hcpu, hdraws]
  refine ⟨fun hl hc => ?_, fun hl hc => ?_, fun hn => ?_, fun hn => ?_⟩
  · rw [clearFlags_of_not (by omega), startVblank_at hl hc]
    refine ⟨rfl, fun hb => ?_, fun hb => ?_⟩
    · rw [if_pos hb]
      exact ⟨rfl, rfl⟩
    · rw [hb]
      exact ⟨rfl, rfl⟩
  · have hv : ¬ ((clearFlags s).ppu.scanline = 241 ∧ (clearFlags s).ppu.cycle = 1) := by
      simp only [clearFlags_at hl hc, State.withPpu_ppu, hl]
      omega
    rw [startVblank_of_not hv, clearFlags_at hl hc, hh (by omega)]
    exact ⟨rfl, rfl, rfl, rfl, rfl⟩
  · rw [clearFlags_of_not (by omega), startVblank_of_not (by omega)]
    exact ⟨rfl, rfl, rfl⟩
  · obtain ⟨b, hb⟩ := startVblank_ppu s
    rw [clearFlags_of_not hn, hb]
    exact ⟨fun hs => by rw [hs, Bool.true_or], rfl⟩

/-! ## The scroll register at cycle 256 -/

/-- At cycle 256 of a render line the fetch's coarse-X increment comes first, then the Y increment (50_ppu.md R420, R433). -/
theorem backgroundWork_v_at_256 {s : State} (hc : s.ppu.cycle = 256) (hr : s.ppu.rendering = true) (hl : s.ppu.renderLine = true) :
    (backgroundWork s).ppu.v = yIncrement (coarseXIncrement s.ppu.v) := by
  simp [backgroundWork, hr, hl, hc, isFetchCycle, fetchTile]

/-- Only background work moves `v`. -/
theorem ppuCycle_v (s : State) :
    (ppuCycle s).ppu.v = (backgroundWork (visiblePixel (startVblank (clearFlags s)))).ppu.v := by
  rw [ppuCycle_eq]
  obtain ⟨m, c, e⟩ := spriteWork_eq (backgroundWork (visiblePixel (startVblank (clearFlags s))))
  rw [e]
  exact Ppu.advance_v _

/-- Background work meets the PPU as the cycle found it, but for the status flags and the frame. -/
theorem visiblePixel_startVblank_clearFlags_ppu (s : State) : ∃ b h o f, (visiblePixel (startVblank (clearFlags s))).ppu =
    { s.ppu with vblank := b, sprite0Hit := h, spriteOverflow := o, frame := f } := by
  obtain ⟨b, h, o, he⟩ := startVblank_clearFlags_ppu s
  obtain ⟨h', f, -, hp⟩ := visiblePixel_eq (startVblank (clearFlags s))
  rw [hp, he]
  exact ⟨_, _, _, _, rfl⟩

/-- Settles O52: the two increments by their fields, and their order in a cycle. -/
theorem scrollIncrements : Obligations.ScrollIncrements := by
  refine ⟨fun v => ⟨coarseXIncrement_fields v, yIncrement_fields v⟩, fun s hc hl hm => ?_⟩
  have hr : s.ppu.rendering = true := by simpa [Ppu.rendering] using hm
  have hline : s.ppu.renderLine = true := by simpa [Ppu.renderLine] using hl
  obtain ⟨b, h, o, f, e⟩ := visiblePixel_startVblank_clearFlags_ppu s
  rw [ppuCycle_v, backgroundWork_v_at_256 (by rw [e]; exact hc) (by rw [e]; exact hr) (by rw [e]; exact hline), e]

/-! ## A visible cycle with rendering off -/

theorem backgroundWork_of_not_rendering {s : State} (h : s.ppu.rendering = false) : backgroundWork s = s := by
  simp [backgroundWork, h]

theorem spriteWork_of_not {s : State} (h : s.ppu.scanline ≠ 261) : spriteWork s = s := if_neg fun hc => h hc.1

/-- With the background and the sprites off a pixel is the universal background colour, and no sprite is hit
(50_ppu.md R450, R451, R453). -/
theorem outputPixel_of_not_rendering {s : State} (hb : s.ppu.mask.getLsbD 3 = false) (hs : s.ppu.mask.getLsbD 4 = false) (x y : Nat) :
    outputPixel x y s = s.withPpu { s.ppu with frame := s.ppu.frame.write (y * 256 + x) (s.ppu.palette.read 0 &&& 0x3F) } := by
  have hbg : s.ppu.backgroundPixel x = none := if_pos (.inl hb)
  have hsp : s.ppu.showsSprites x = false := by rw [Ppu.showsSprites, hs, Bool.false_and]
  simp [outputPixel, hbg, hsp, priority, paletteIndex]

/-- Settles O53: of the six stages only the pixel output and the advance act. -/
theorem renderingOffShowsTheBackground : Obligations.RenderingOffShowsTheBackground := by
  intro s hb hs hl h0 h1
  have hr : s.ppu.rendering = false := by rw [Ppu.rendering, hb, hs, Bool.false_or]
  have hn : ¬ (s.ppu.cycle + 1 = 341) := by omega
  have hp : visiblePixel s = s.withPpu { s.ppu with
      frame := s.ppu.frame.write (s.ppu.scanline * 256 + (s.ppu.cycle - 1)) (s.ppu.palette.read 0 &&& 0x3F) } := by
    rw [visiblePixel, if_pos ⟨hl, h0, h1⟩, outputPixel_of_not_rendering hb hs]
  rw [ppuCycle_eq, clearFlags_of_not (by omega), startVblank_of_not (by omega), hp, backgroundWork_of_not_rendering (by exact hr),
    spriteWork_of_not (by simp only [State.withPpu_ppu]; omega), Ppu.advance_of_ne (by exact hn)]
  rfl

end Sys2Proof.Machine
end

section
/-! The APU among the other devices: the console's reset (70_reset_and_hazards.md R751, R752), the frame sequencer's counter and
interrupt flag (51_apu.md R484), and that a fan-out always completes (51_apu.md R532; 53_scheduler_io.md R632). -/

namespace Sys2Proof.Machine

/-! ## The console's reset -/

/-- The host's reset takes its turn as one step. -/
theorem step_reset {s : State} {rest : List HostEvent} (hf : s.fault = none) (hs : s.synced = s.cpu.cycles)
    (hq : s.hostQueue = .reset :: rest) : step s = .next (systemReset { s with hostQueue := rest }) := by
  simp only [step, hf, if_pos hs, boundary, hq]

/-- Settles O45: the reset button's step, with PC from the vector the state before it holds. -/
theorem consoleReset : Obligations.ConsoleReset := by
  intro s rest hf hs hq
  obtain ⟨lo, hi, hlo, hhi, hv⟩ := vectorAt_bytes s (a := resetVector) (by decide) (by decide)
  have hvector : vectorAt { s with hostQueue := rest } resetVector = vectorAt s resetVector :=
    vectorAt_congr (by decide) (by decide) rfl rfl
  refine ⟨lo, hi, hlo, hhi, ?_⟩
  rw [step_reset hf hs hq, systemReset, cpuReset, hvector, hv]
  rfl

/-! ## The frame sequencer -/

/-- The frame sequencer's own state is the same: counter, mode, inhibit bit and interrupt flag. -/
structure Apu.SameSequencer (u w : Apu) : Prop where
  fc : w.fc = u.fc
  fmode : w.fmode = u.fmode
  irqInhibit : w.irqInhibit = u.irqInhibit
  frameIrq : w.frameIrq = u.frameIrq

theorem Apu.SameSequencer.trans {u w x : Apu} (h : u.SameSequencer w) (k : w.SameSequencer x) : u.SameSequencer x :=
  ⟨k.fc.trans h.fc, k.fmode.trans h.fmode, k.irqInhibit.trans h.irqInhibit, k.frameIrq.trans h.frameIrq⟩

theorem Apu.sameSequencer_quarter (u : Apu) : u.SameSequencer u.quarter := ⟨rfl, rfl, rfl, rfl⟩

theorem Apu.sameSequencer_halfFrame (u : Apu) : u.SameSequencer u.halfFrame := ⟨rfl, rfl, rfl, rfl⟩

theorem Apu.sameSequencer_quarter_halfFrame (u : Apu) : u.SameSequencer u.quarter.halfFrame :=
  u.sameSequencer_quarter.trans u.quarter.sameSequencer_halfFrame

theorem Apu.sameSequencer_atStep {g : Apu → Apu} (hg : ∀ u : Apu, u.SameSequencer (g u)) (u : Apu) (n : Nat) :
    u.SameSequencer (u.atStep n g) := by
  unfold Apu.atStep
  split
  · exact hg u
  · exact ⟨rfl, rfl, rfl, rfl⟩

/-- Steps 1 to 3 of the sequence, the clocks both modes share (51_apu.md R484). -/
def Apu.firstSteps (f : FrameSteps) (u : Apu) : Apu :=
  ((u.atStep f.s1 Apu.quarter).atStep f.s2 (fun u => u.quarter.halfFrame)).atStep f.s3 Apu.quarter

theorem Apu.sameSequencer_firstSteps (f : FrameSteps) (u : Apu) : u.SameSequencer (u.firstSteps f) :=
  ((sameSequencer_atStep sameSequencer_quarter u f.s1).trans (sameSequencer_atStep sameSequencer_quarter_halfFrame _ f.s2)).trans
    (sameSequencer_atStep sameSequencer_quarter _ f.s3)

theorem Apu.sequencerStep_eq (f : FrameSteps) (u : Apu) : u.sequencerStep f =
    if ((u.advanceCounter f).firstSteps f).fmode then ((u.advanceCounter f).firstSteps f).atStep f.s5 (fun u => u.quarter.halfFrame)
    else ((u.advanceCounter f).firstSteps f).atStep f.s4 (fun u => u.quarter.halfFrame.raiseFrameIrq) := rfl

/-- In 5-step mode a step clocks units only. -/
theorem Apu.sequencerStep_fiveStep {f : FrameSteps} {u : Apu} (h : u.fmode = true) :
    (u.advanceCounter f).SameSequencer (u.sequencerStep f) := by
  have hfirst := (u.advanceCounter f).sameSequencer_firstSteps f
  rw [sequencerStep_eq, if_pos (hfirst.fmode.trans h)]
  exact hfirst.trans (sameSequencer_atStep sameSequencer_quarter_halfFrame _ f.s5)

theorem Apu.raiseFrameIrq_fc (u : Apu) : u.raiseFrameIrq.fc = u.fc := by
  unfold raiseFrameIrq
  split <;> rfl

theorem Apu.raiseFrameIrq_frameIrq (u : Apu) : u.raiseFrameIrq.frameIrq = (u.frameIrq || !u.irqInhibit) := by
  unfold raiseFrameIrq
  split
  · rename_i h
    simp [h]
  · rename_i h
    simp [h]

/-- In 4-step mode the fourth step raises the flag unless it is inhibited. -/
theorem Apu.sequencerStep_fourStep {f : FrameSteps} {u : Apu} (h : u.fmode = false) :
    (u.sequencerStep f).fc = (u.advanceCounter f).fc ∧
    (u.sequencerStep f).frameIrq = (u.frameIrq || (!u.irqInhibit && decide ((u.advanceCounter f).fc = f.s4))) := by
  have hfirst := (u.advanceCounter f).sameSequencer_firstSteps f
  have hmode : ((u.advanceCounter f).firstSteps f).fmode = false := hfirst.fmode.trans h
  rw [sequencerStep_eq, if_neg (by rw [hmode]; exact Bool.false_ne_true), Apu.atStep, hfirst.fc]
  by_cases hstep : (u.advanceCounter f).fc = f.s4
  · have hclocks := hfirst.trans (((u.advanceCounter f).firstSteps f).sameSequencer_quarter_halfFrame)
    rw [if_pos hstep, raiseFrameIrq_fc, raiseFrameIrq_frameIrq, hclocks.fc, hclocks.irqInhibit, hclocks.frameIrq, decide_eq_true hstep,
      Bool.and_true]
    exact ⟨rfl, rfl⟩
  · rw [if_neg hstep, hfirst.fc, hfirst.frameIrq, decide_eq_false hstep, Bool.and_false, Bool.or_false]
    exact ⟨rfl, rfl⟩

/-- A counter that wraps past its last value counts modulo one more. -/
theorem wrapPast_eq_mod {n last : Nat} (h : n ≤ last) : (if n + 1 = last + 1 then 0 else n + 1) = (n + 1) % (last + 1) := by
  split
  · rename_i hlast
    rw [hlast, Nat.mod_self]
  · rw [Nat.mod_eq_of_lt (by omega)]

/-- The counter's period is its mode's last step and one more. -/
theorem Apu.advanceCounter_fc {f : FrameSteps} {u : Apu} (h : u.fc ≤ (if u.fmode then f.s5 else f.s4)) :
    (u.advanceCounter f).fc = (u.fc + 1) % ((if u.fmode then f.s5 else f.s4) + 1) := by
  rw [← wrapPast_eq_mod h]
  cases hm : u.fmode <;> simp [advanceCounter, hm]

/-- Settles O54: the two modes, whose shared steps and clocks leave the counter and the flag alone. -/
theorem frameIrqAtTheFourthStep : Obligations.FrameIrqAtTheFourthStep := by
  intro f u h
  rw [← Apu.advanceCounter_fc h]
  cases hm : u.fmode with
  | true =>
    have hclocks := Apu.sequencerStep_fiveStep (f := f) hm
    rw [hclocks.fc, hclocks.frameIrq, Bool.not_true, Bool.false_and, Bool.false_and, Bool.or_false]
    exact ⟨rfl, rfl⟩
  | false =>
    obtain ⟨hfc, hirq⟩ := Apu.sequencerStep_fourStep (f := f) hm
    have hcount := Apu.advanceCounter_fc h
    rw [hm, if_neg Bool.false_ne_true] at hcount
    rw [hfc, hirq, hcount, Bool.not_false, Bool.true_and]
    exact ⟨rfl, rfl⟩

/-! ## A fan-out completes -/

/-- The DMC's reader finds its byte in PRG ROM (51_apu.md R532; 20_memory.md R96). -/
theorem dmcReader_completes {s : State} (h : 0x8000 ≤ s.apu.dmc.curAddr.toNat) : ∃ t, dmcReader s = .ok () t := by
  unfold dmcReader
  split
  · rw [readByte_prg _ h]
    exact ⟨_, rfl⟩
  · exact ⟨s, rfl⟩

theorem apuCycle_completes {s : State} (h : ApuOk s.params.frameStepCycles s.apu) : ∃ t, apuCycle s = .ok () t := by
  obtain ⟨-, -, haddr, -⟩ := apuOk_sequencerStep _ _ h
  obtain ⟨t, ht⟩ := dmcReader_completes (s := s.withApu (s.apu.sequencerStep s.params.frameStepCycles)) haddr
  rw [apuCycle, ht]
  exact ⟨_, rfl⟩

/-- Settles O42: the mapper keeps the APU's ranges, in which the APU's cycle completes; no other device can stop. -/
theorem fanOutAlwaysCompletes : Obligations.FanOutAlwaysCompletes := by
  intro s hf hs ha
  have hm := kept_mapperCycle s
  obtain ⟨t, ht⟩ := apuCycle_completes (s := mapperCycle s) (hm.params ▸ hm.apu ha)
  have hfan : ∃ t, fanOut s = .next t := by
    rw [fanOut, ht]
    exact ⟨_, rfl⟩
  obtain ⟨t, ht⟩ := hfan
  obtain ⟨u, hu, rfl⟩ := fanOut_cases ht
  refine ⟨{ u with synced := u.synced + 1 }, ?_, congrArg (· + 1) hu.synced⟩
  rw [← ht]
  simp only [step, hf, if_neg hs]

end Sys2Proof.Machine
end

section
/-! The APU's registers as numbers: what a write of $4000 to $4013, $4015 and $4017 sets, what a read of $4015 gives, and the quarter and
half frame clocks (51_apu.md R485 to R490, R493, R510, R511, R520, R530, R531, R540, R541). -/

namespace Sys2Proof.Machine

/-! ## Fields of a written byte -/

/-- The low bits of a byte. -/
theorem setWidth_eq_ofNat_mod (v : Byte) (n : Nat) : v.setWidth n = BitVec.ofNat n (v.toNat % 2 ^ n) :=
  BitVec.eq_of_toNat_eq (by simp)

/-- The bits of a byte from bit `k` on. -/
theorem setWidth_ushiftRight_eq_ofNat (v : Byte) (k n : Nat) : (v >>> k).setWidth n = BitVec.ofNat n (v.toNat / 2 ^ k) :=
  BitVec.eq_of_toNat_eq (by simp [Nat.shiftRight_eq_div_pow])

/-- The bits of a period made of a low byte and the bits above it. -/
theorem getLsbD_ofNat_high_low (high : Nat) (low : Byte) {i : Nat} (hi : i < 11) :
    (BitVec.ofNat 11 (high * 256 + low.toNat)).getLsbD i = if i < 8 then low.getLsbD i else high.testBit (i - 8) := by
  rw [BitVec.getLsbD_ofNat, decide_eq_true hi, Bool.true_and, Nat.mul_comm]
  exact Nat.testBit_two_pow_mul_add high low.isLt i

theorem periodLow_eq (period : BitVec 11) (v : Byte) :
    periodLow period v = BitVec.ofNat 11 (period.toNat / 256 * 256 + v.toNat) := by
  have hdiv (j : Nat) : (period.toNat / 256).testBit j = period.getLsbD (j + 8) := Nat.testBit_div_two_pow (n := 8) period.toNat j
  apply BitVec.eq_of_getLsbD_eq
  intro i hi
  rw [getLsbD_ofNat_high_low _ v hi, hdiv]
  interval_cases i <;> simp [periodLow]

theorem periodHigh_eq (period : BitVec 11) (v : Byte) :
    periodHigh period v = BitVec.ofNat 11 (v.toNat % 8 * 256 + period.toNat % 256) := by
  have hmod (j : Nat) : (v.toNat % 8).testBit j = (decide (j < 3) && v.getLsbD j) := Nat.testBit_mod_two_pow v.toNat 3 j
  apply BitVec.eq_of_getLsbD_eq
  intro i hi
  rw [← BitVec.toNat_setWidth 8 period, getLsbD_ofNat_high_low _ _ hi, hmod]
  interval_cases i <;> simp [periodHigh]

theorem lengthLoad_eq (enabled : Bool) (length v : Byte) : lengthLoad enabled length v =
    if enabled then ([10, 254, 20, 2, 40, 4, 80, 6, 160, 8, 60, 10, 14, 12, 26, 14, 12, 16, 24, 18, 48, 20, 96, 22, 192, 24, 72, 26,
      16, 28, 32, 30] : List Byte).getD (v.toNat / 8) 0 else length := by
  have hindex : ((v >>> 3).setWidth 5).toNat = v.toNat / 8 := by
    rw [setWidth_ushiftRight_eq_ofNat, BitVec.toNat_ofNat]
    omega
  rw [lengthLoad, lengthTable, hindex]

theorem Envelope.writeControl_eq (e : Envelope) (v : Byte) : e.writeControl v =
    { e with lenHalt := v.getLsbD 5, constVol := v.getLsbD 4, vol := BitVec.ofNat 4 (v.toNat % 16) } := by
  rw [writeControl, setWidth_eq_ofNat_mod]
  rfl

/-! ## The channels' registers -/

theorem Pulse.write_eq (c : Pulse) (v : Byte) {k : Nat} (hk : k < 4) : c.write k v =
    if k = 0 then { c with duty := BitVec.ofNat 2 (v.toNat / 64), env := c.env.writeControl v }
    else if k = 1 then { c with
      swEnabled := v.getLsbD 7
      swPeriod := BitVec.ofNat 3 (v.toNat / 16 % 8)
      swNegate := v.getLsbD 3
      swShift := BitVec.ofNat 3 (v.toNat % 8)
      swReload := true }
    else if k = 2 then { c with timerPeriod := periodLow c.timerPeriod v }
    else { c with
      timerPeriod := periodHigh c.timerPeriod v
      length := lengthLoad c.enabled c.length v
      seq := 0
      env := { c.env with start := true } } := by
  interval_cases k
  · rw [write, setWidth_ushiftRight_eq_ofNat]
    rfl
  · have hperiod : (v >>> 4).setWidth 3 = BitVec.ofNat 3 (v.toNat / 16 % 8) := by
      rw [setWidth_ushiftRight_eq_ofNat]
      exact BitVec.eq_of_toNat_eq (by simp)
    rw [write, hperiod, setWidth_eq_ofNat_mod]
    rfl
  · rfl
  · rfl

theorem Triangle.write_eq (c : Triangle) (v : Byte) {k : Nat} (hk : k < 4) : c.write k v =
    if k = 0 then { c with control := v.getLsbD 7, linReloadVal := BitVec.ofNat 7 (v.toNat % 128) }
    else if k = 1 then c
    else if k = 2 then { c with timerPeriod := periodLow c.timerPeriod v }
    else { c with timerPeriod := periodHigh c.timerPeriod v, length := lengthLoad c.enabled c.length v, linReload := true } := by
  interval_cases k
  · rw [write, setWidth_eq_ofNat_mod]
    rfl
  all_goals rfl

theorem Noise.write_eq (c : Noise) (v : Byte) {k : Nat} (hk : k < 4) : c.write k v =
    if k = 0 then { c with env := c.env.writeControl v }
    else if k = 1 then c
    else if k = 2 then { c with mode := v.getLsbD 7, periodIdx := BitVec.ofNat 4 (v.toNat % 16) }
    else { c with length := lengthLoad c.enabled c.length v, env := { c.env with start := true } } := by
  interval_cases k
  · rfl
  · rfl
  · rw [write, setWidth_eq_ofNat_mod]
    rfl
  · rfl

theorem Dmc.write_eq (c : Dmc) (v : Byte) {k : Nat} (hk : k < 4) : c.write k v =
    if k = 0 then { c with
      irqEnable := v.getLsbD 7
      loop := v.getLsbD 6
      rateIdx := BitVec.ofNat 4 (v.toNat % 16)
      dmcIrq := if v.getLsbD 7 then c.dmcIrq else false }
    else if k = 1 then { c with level := BitVec.ofNat 7 (v.toNat % 128) }
    else if k = 2 then { c with addrReg := v }
    else { c with lenReg := v } := by
  interval_cases k
  · have hirq : (c.dmcIrq && v.getLsbD 7) = if v.getLsbD 7 then c.dmcIrq else false := by cases v.getLsbD 7 <;> simp
    rw [write, setWidth_eq_ofNat_mod, hirq]
    rfl
  · rw [write, setWidth_eq_ofNat_mod]
    rfl
  · rfl
  · rfl

/-! ## The map from addresses to registers -/

/-- $4000 to $4013, $4015 and $4017 are the APU's registers (51_apu.md R481; 20_memory.md R93). -/
theorem writeByte_apu (b : Byte) (s : State) {a i : Nat} (ha : a = 0x4000 + i) (hi : i < 0x14 ∨ i = 0x15 ∨ i = 0x17) :
    writeByte (BitVec.ofNat 16 a) b s = .ok () { s with apu := s.apu.writeRegister i b } := by
  have hn : (BitVec.ofNat 16 a).toNat = 0x4000 + i := by
    rw [BitVec.toNat_ofNat]
    omega
  rw [writeByte_io b s (by omega) (by omega), hn, Nat.add_sub_cancel_left, ioWrite_apu b s (by omega) (by omega)]

section
variable (u : Apu) (v : Byte) {k : Nat} (hk : k < 4)
include hk

theorem Apu.writeRegister_pulse0 : u.writeRegister k v = { u with pulse0 := u.pulse0.write k v } := if_pos hk

theorem Apu.writeRegister_pulse1 : u.writeRegister (4 + k) v = { u with pulse1 := u.pulse1.write k v } := by
  rw [writeRegister, if_neg (by omega), if_pos (by omega), Nat.add_sub_cancel_left]

theorem Apu.writeRegister_triangle : u.writeRegister (8 + k) v = { u with triangle := u.triangle.write k v } := by
  rw [writeRegister, if_neg (by omega), if_neg (by omega), if_pos (by omega), Nat.add_sub_cancel_left]

theorem Apu.writeRegister_noise : u.writeRegister (12 + k) v = { u with noise := u.noise.write k v } := by
  rw [writeRegister, if_neg (by omega), if_neg (by omega), if_neg (by omega), if_pos (by omega), Nat.add_sub_cancel_left]

theorem Apu.writeRegister_dmc : u.writeRegister (16 + k) v = { u with dmc := u.dmc.write k v } := by
  rw [writeRegister, if_neg (by omega), if_neg (by omega), if_neg (by omega), if_neg (by omega), if_pos (by omega),
    Nat.add_sub_cancel_left]

end

/-! ## $4015 -/

theorem bne_zero_eq_decide_pos {n : Nat} (v : BitVec n) : (v != 0) = decide (0 < v.toNat) := by
  rw [Bool.eq_iff_iff, bne_iff_ne, decide_eq_true_iff, Nat.pos_iff_ne_zero, ne_eq, ← BitVec.toNat_inj]
  simp

/-- The bits of a number written as a sum of powers of two, the one for bit 5 absent. -/
theorem getLsbD_bitSum (b0 b1 b2 b3 b4 b6 b7 : Bool) :
    let v := BitVec.ofNat 8 (bit01 b0 + bit01 b1 * 2 + bit01 b2 * 4 + bit01 b3 * 8 + bit01 b4 * 16 + bit01 b6 * 64 + bit01 b7 * 128)
    v.getLsbD 0 = b0 ∧ v.getLsbD 1 = b1 ∧ v.getLsbD 2 = b2 ∧ v.getLsbD 3 = b3 ∧ v.getLsbD 4 = b4 ∧ v.getLsbD 5 = false ∧
    v.getLsbD 6 = b6 ∧ v.getLsbD 7 = b7 := by
  revert b0 b1 b2 b3 b4 b6 b7
  decide

theorem Apu.status_bits (u : Apu) :
    u.status.getLsbD 0 = decide (0 < u.pulse0.length.toNat) ∧ u.status.getLsbD 1 = decide (0 < u.pulse1.length.toNat) ∧
    u.status.getLsbD 2 = decide (0 < u.triangle.length.toNat) ∧ u.status.getLsbD 3 = decide (0 < u.noise.length.toNat) ∧
    u.status.getLsbD 4 = decide (0 < u.dmc.bytesRem.toNat) ∧ u.status.getLsbD 5 = false ∧ u.status.getLsbD 6 = u.frameIrq ∧
    u.status.getLsbD 7 = u.dmc.dmcIrq := by
  simp only [← bne_zero_eq_decide_pos]
  exact getLsbD_bitSum _ _ _ _ _ _ _

theorem readByte_apuStatus (s : State) : readByte 0x4015 s = .ok s.apu.status { s with apu := { s.apu with frameIrq := false } } :=
  readByte_io s (by decide) (by decide)

theorem Dmc.restart_eq (c : Dmc) : c.restart = { c with
    curAddr := BitVec.ofNat 16 (0xC000 + c.addrReg.toNat * 64), bytesRem := BitVec.ofNat 12 (c.lenReg.toNat * 16 + 1) } := by
  have haddr : 0xC000 + c.addrReg.setWidth 16 * 64 = BitVec.ofNat 16 (0xC000 + c.addrReg.toNat * 64) :=
    BitVec.eq_of_toNat_eq (by simp)
  have hlen : c.lenReg.setWidth 12 * 16 + 1 = BitVec.ofNat 12 (c.lenReg.toNat * 16 + 1) :=
    BitVec.eq_of_toNat_eq (by simp)
  rw [restart, haddr, hlen]

/-- Enabling the DMC restarts it only at its end; disabling it ends it; both clear its flag (51_apu.md R531, R540). -/
theorem Dmc.enable_eq (c : Dmc) (on : Bool) : c.enable on = { c with
    dmcIrq := false
    bytesRem := if on = false then 0 else if c.bytesRem = 0 then BitVec.ofNat 12 (c.lenReg.toNat * 16 + 1) else c.bytesRem
    curAddr := if on = true ∧ c.bytesRem = 0 then BitVec.ofNat 16 (0xC000 + c.addrReg.toNat * 64) else c.curAddr } := by
  cases on with
  | false => simp [enable]
  | true =>
    by_cases h : c.bytesRem = 0
    · simp [enable, h, restart_eq]
    · simp only [enable, h, Bool.true_eq_false, if_false, and_false]

/-! ## The quarter and half frame clocks -/

theorem Envelope.clock_eq (e : Envelope) : e.clock = { e with
    start := false
    decay := if e.start then 15 else if e.div ≠ 0 then e.decay else if e.decay ≠ 0 then e.decay - 1 else if e.lenHalt then 15 else 0
    div := if e.start ∨ e.div = 0 then e.vol else e.div - 1 } := by
  cases hstart : e.start with
  | true => simp [clock, hstart]
  | false =>
    by_cases hdiv : e.div = 0
    · by_cases hdecay : e.decay = 0
      · cases hloop : e.lenHalt <;> simp [clock, hstart, hdiv, hdecay, hloop]
      · simp only [clock, hstart, hdiv, hdecay, Bool.false_eq_true, ne_eq, not_true_eq_false, not_false_eq_true, or_true, if_true,
          if_false]
    · simp only [clock, hstart, hdiv, Bool.false_eq_true, ne_eq, not_false_eq_true, or_self, if_true, if_false]

theorem Triangle.linearClock_eq (c : Triangle) : c.linearClock = { c with
    lin := if c.linReload then c.linReloadVal else if c.lin = 0 then 0 else c.lin - 1
    linReload := if c.control then c.linReload else false } := by
  have hlin : (if c.lin ≠ 0 then c.lin - 1 else c.lin) = if c.lin = 0 then 0 else c.lin - 1 := by
    by_cases h : c.lin = 0
    · simp [h]
    · rw [if_pos h, if_neg h]
  have hreload : (c.linReload && c.control) = if c.control then c.linReload else false := by cases c.control <;> simp
  rw [linearClock, hlin, hreload]

theorem lengthClock_eq (halt : Bool) (length : Byte) : lengthClock halt length = if halt ∨ length = 0 then length else length - 1 := by
  cases halt with
  | true => rfl
  | false => by_cases h : length = 0 <;> simp [lengthClock, h]

/-- The sweep's change is the period divided by a power of two; pulse 1 subtracts one more (51_apu.md R493). -/
theorem Pulse.target_eq (c : Pulse) (first : Bool) : c.target first =
    if c.swNegate then
      (c.timerPeriod.toNat : Int) - (c.timerPeriod.toNat / 2 ^ c.swShift.toNat : Nat) - (if first then 1 else 0)
    else c.timerPeriod.toNat + (c.timerPeriod.toNat / 2 ^ c.swShift.toNat : Nat) := by
  rw [target, BitVec.toNat_ushiftRight, Nat.shiftRight_eq_div_pow]

theorem Pulse.mute_eq_false_iff (c : Pulse) (first : Bool) :
    c.mute first = false ↔ 8 ≤ c.timerPeriod.toNat ∧ c.target first ≤ 0x7FF := by
  simp [mute]

theorem Pulse.sweepClock_eq (c : Pulse) (first : Bool) : c.sweepClock first = { c with
    timerPeriod :=
      if c.swDiv = 0 ∧ c.swEnabled = true ∧ c.swShift ≠ 0 ∧ 8 ≤ c.timerPeriod.toNat ∧ c.target first ≤ 0x7FF then
        BitVec.ofInt 11 (c.target first)
      else c.timerPeriod
    swDiv := if c.swDiv = 0 ∨ c.swReload = true then c.swPeriod else c.swDiv - 1
    swReload := false } := by
  simp only [sweepClock, mute_eq_false_iff]
  by_cases h : c.swDiv = 0 ∨ c.swReload = true
  · simp only [if_pos h]
  · have hreload : c.swReload = false := by simpa using fun hr => h (.inr hr)
    rw [if_neg h, if_neg h, ← hreload]

/-! ## The registers together -/

/-- Settles O55: the read and the write of $4015, each channel's four registers, $4017, and the two frame clocks. -/
theorem apuStatusPort : Obligations.ApuStatusPort := by
  refine ⟨fun s b => ⟨⟨s.apu.status, readByte_apuStatus s, s.apu.status_bits⟩, ?_⟩, fun s b k hk => ?_, fun s b => ?_, fun u => ?_⟩
  · refine (writeByte_apu b s (i := 0x15) rfl (by decide)).trans ?_
    rw [← Dmc.enable_eq]
    rfl
  · refine ⟨?_, ?_, ?_, ?_, ?_⟩
    · rw [writeByte_apu b s rfl (by omega), Apu.writeRegister_pulse0 _ b hk, Pulse.write_eq _ b hk]
      simp only [Envelope.writeControl_eq, periodLow_eq, periodHigh_eq, lengthLoad_eq]
    · rw [writeByte_apu b s (i := 4 + k) (by omega) (by omega), Apu.writeRegister_pulse1 _ b hk, Pulse.write_eq _ b hk]
      simp only [Envelope.writeControl_eq, periodLow_eq, periodHigh_eq, lengthLoad_eq]
    · rw [writeByte_apu b s (i := 8 + k) (by omega) (by omega), Apu.writeRegister_triangle _ b hk, Triangle.write_eq _ b hk]
      simp only [periodLow_eq, periodHigh_eq, lengthLoad_eq]
    · rw [writeByte_apu b s (i := 12 + k) (by omega) (by omega), Apu.writeRegister_noise _ b hk, Noise.write_eq _ b hk]
      simp only [Envelope.writeControl_eq, lengthLoad_eq]
    · rw [writeByte_apu b s (i := 16 + k) (by omega) (by omega), Apu.writeRegister_dmc _ b hk, Dmc.write_eq _ b hk]
  · have hirq : (s.apu.frameIrq && !b.getLsbD 6) = if b.getLsbD 6 then false else s.apu.frameIrq := by
      cases b.getLsbD 6 <;> simp
    refine (writeByte_apu b s (i := 0x17) rfl (by decide)).trans ?_
    dsimp only
    rw [← hirq]
    rfl
  · refine ⟨?_, ?_⟩
    · simp only [Apu.quarter, Envelope.clock_eq, Triangle.linearClock_eq]
    · simp only [Apu.halfFrame, Apu.lengthClocks, Pulse.sweepClock_eq, Pulse.target_eq, lengthClock_eq]
      rfl

end Sys2Proof.Machine
end

section
/-! The mixer: one fraction of naturals, the spec's two rational outputs added, and the quantization by floor (51_apu.md R550). -/

namespace Sys2Proof.Machine

/-- `pulse_out` as one fraction. -/
theorem pulseOut_eq (p : Nat) :
    (if p = 0 then 0 else (9588 / 100) / (8128 / (p : ℚ) + 100)) = 9588 * (p : ℚ) / (100 * (8128 + 100 * (p : ℚ))) := by
  split
  · rename_i h
    simp [h]
  · rename_i h
    have hp : (0 : ℚ) < p := by exact_mod_cast Nat.pos_of_ne_zero h
    field_simp

/-- `tnd_out` as one fraction, of an input that is one. -/
theorem tndOut_eq {num den : ℚ} (hn : 0 ≤ num) (hd : 0 < den) :
    (if num / den = 0 then 0 else (15979 / 100) / (1 / (num / den) + 100)) = 15979 * num / (100 * (den + 100 * num)) := by
  by_cases h : num = 0
  · simp [h]
  · have hpos : 0 < num := lt_of_le_of_ne hn (Ne.symm h)
    rw [if_neg (div_pos hpos hd).ne']
    field_simp

/-- The quantization of a fraction: its floor on the scale to 255, with the clamp after the floor. -/
theorem floor_clamped_div (num den : Nat) :
    ⌊255 * min 1 (max 0 ((num : ℚ) / den))⌋ = ((min 255 (255 * num / den) : Nat) : Int) := by
  have hscale : 255 * ((num : ℚ) / den) = ((255 * num : Nat) : ℚ) / (den : ℚ) := by
    push_cast
    ring
  have hmono : Monotone (fun q : ℚ => ⌊q⌋) := Int.floor_mono
  rw [max_eq_right (by positivity), mul_min_of_nonneg _ _ (by norm_num), hscale, hmono.map_min, Rat.floor_natCast_div_natCast]
  norm_num

/-- Settles O56: the two outputs over their common denominator are the fraction `mix` divides out. -/
theorem mixerIsTheRationalFormula : Obligations.MixerIsTheRationalFormula := by
  intro p1 p2 t n d
  dsimp only
  have hin : (t : ℚ) / 8227 + (n : ℚ) / 12241 + (d : ℚ) / 22638 =
      ((t * (12241 * 22638) + n * (8227 * 22638) + d * (8227 * 12241) : Nat) : ℚ) / ((8227 * 12241 * 22638 : Nat) : ℚ) := by
    push_cast
    ring
  rw [hin, pulseOut_eq, tndOut_eq (Nat.cast_nonneg _) (by norm_num), div_add_div _ _ (by positivity) (by positivity), mix,
    BitVec.toNat_ofNat, Nat.mod_eq_of_lt (by omega), ← floor_clamped_div]
  push_cast
  congr 5
  ring

end Sys2Proof.Machine
end

section
/-! The controller ports (53_scheduler_io.md R660 to R662): the strobe's write, one serial read, and the reads in a row. -/

namespace Sys2Proof.Machine

/-! ## The strobe -/

theorem Controllers.writeStrobe_eq (c : Controllers) (v : Byte) : c.writeStrobe v = { c with
    strobe := v.getLsbD 0
    index0 := if v.getLsbD 0 then 0 else c.index0
    index1 := if v.getLsbD 0 then 0 else c.index1 } := by
  unfold writeStrobe
  cases v.getLsbD 0 <;> rfl

theorem writeByte_4016 (v : Byte) (s : State) : writeByte 0x4016 v s = .ok () { s with pads := s.pads.writeStrobe v } := by
  rw [writeByte_io v s (by decide) (by decide), ioWrite, if_neg (by decide), if_pos (by decide)]

/-! ## One serial read -/

/-- The buttons in polling order (53_scheduler_io.md R660), as the list a controller shifts out. -/
def Buttons.levels (b : Buttons) : List Bool := [b.a, b.b, b.select, b.start, b.up, b.down, b.left, b.right]

theorem Buttons.levels_getD (b : Buttons) (e : Bool) {k : Nat} (h : k < 8) : b.levels.getD k e = b.level k := by
  interval_cases k <;> rfl

theorem Buttons.levels_getD_exhausted (b : Buttons) (e : Bool) {k : Nat} (h : 8 ≤ k) : b.levels.getD k e = e :=
  List.getD_eq_default _ _ h

theorem serialRead_strobed (e : Bool) (b : Buttons) (i : Nat) : serialRead e true b i = (b.a, i) := rfl

/-- With the strobe down, the `k`th read gives the `k`th level of the list, and the index stops at its end. -/
theorem serialRead_shifting (e : Bool) (b : Buttons) (k : Nat) :
    serialRead e false b (min k 8) = (b.levels.getD k e, min (k + 1) 8) := by
  rw [serialRead, if_neg Bool.false_ne_true]
  rcases lt_or_ge k 8 with h | h
  · rw [min_eq_left h.le, min_eq_left h, if_pos h, b.levels_getD e h]
  · rw [min_eq_right h, min_eq_right (h.trans k.le_succ), if_neg (lt_irrefl 8), b.levels_getD_exhausted e h]

/-- Controller 1's index moved. -/
def State.withIndex0 (s : State) (i : Nat) : State := { s with pads := { s.pads with index0 := i } }

/-- Controller 2's index moved. -/
def State.withIndex1 (s : State) (i : Nat) : State := { s with pads := { s.pads with index1 := i } }

theorem readByte_4016 (s : State) : readByte 0x4016 s =
    .ok (bitByte (serialRead s.params.controllerExhaustedBit s.pads.strobe s.pads.buttons0 s.pads.index0).1)
      (s.withIndex0 (serialRead s.params.controllerExhaustedBit s.pads.strobe s.pads.buttons0 s.pads.index0).2) :=
  readByte_io s (by decide) (by decide)

theorem readByte_4017 (s : State) : readByte 0x4017 s =
    .ok (bitByte (serialRead s.params.controllerExhaustedBit s.pads.strobe s.pads.buttons1 s.pads.index1).1)
      (s.withIndex1 (serialRead s.params.controllerExhaustedBit s.pads.strobe s.pads.buttons1 s.pads.index1).2) :=
  readByte_io s (by decide) (by decide)

section
variable {s : State}

theorem readByte_4016_strobed (h : s.pads.strobe = true) : readByte 0x4016 s = .ok (bitByte s.pads.buttons0.a) s := by
  rw [readByte_4016, h, serialRead_strobed]
  rfl

theorem readByte_4017_strobed (h : s.pads.strobe = true) : readByte 0x4017 s = .ok (bitByte s.pads.buttons1.a) s := by
  rw [readByte_4017, h, serialRead_strobed]
  rfl

theorem readByte_4016_shifting (h : s.pads.strobe = false) (k : Nat) : readByte 0x4016 (s.withIndex0 (min k 8)) =
    .ok (bitByte (s.pads.buttons0.levels.getD k s.params.controllerExhaustedBit)) (s.withIndex0 (min (k + 1) 8)) := by
  simp only [readByte_4016, State.withIndex0, h, serialRead_shifting]

theorem readByte_4017_shifting (h : s.pads.strobe = false) (k : Nat) : readByte 0x4017 (s.withIndex1 (min k 8)) =
    .ok (bitByte (s.pads.buttons1.levels.getD k s.params.controllerExhaustedBit)) (s.withIndex1 (min (k + 1) 8)) := by
  simp only [readByte_4017, State.withIndex1, h, serialRead_shifting]

end

/-! ## Reads in a row -/

/-- Reads that lead from each state of a sequence to the next give the sequence's bytes. -/
theorem readMany_of_sequence {a : Word} (n : Nat) {st : Nat → State} {out : Nat → Byte}
    (h : ∀ k, readByte a (st k) = .ok (out k) (st (k + 1))) : readMany a n (st 0) = .ok ((List.range n).map out) (st n) := by
  induction n generalizing st out with
  | zero => rfl
  | succ n ih =>
    have hrest : readMany a n (st 1) = .ok ((List.range n).map (fun k => out (k + 1))) (st (n + 1)) :=
      ih (st := fun k => st (k + 1)) fun k => h (k + 1)
    simp only [readMany, h 0, hrest, List.range_succ_eq_map, List.map_cons, List.map_map]
    rfl

theorem readMany_of_unchanged {a : Word} (n : Nat) {s : State} {b : Byte} (h : readByte a s = .ok b s) :
    readMany a n s = .ok (List.replicate n b) s := by
  have hmany := readMany_of_sequence n (st := fun _ => s) (out := fun _ => b) fun _ => h
  rwa [List.map_const', List.length_range] at hmany

/-- Settles O60: the sequence of states of `n` reads is that of the index, which counts up to eight. -/
theorem controllersShiftOut : Obligations.ControllersShiftOut := by
  refine ⟨fun s v => ?_, fun s n => ⟨fun hstrobe hindex => ?_, fun hstrobe hindex => ?_, fun hstrobe => ⟨?_, ?_⟩⟩⟩
  · rw [writeByte_4016, Controllers.writeStrobe_eq]
  · have hstart : s.withIndex0 (min 0 8) = s := congrArg s.withIndex0 hindex.symm
    have hmany := readMany_of_sequence n (st := fun k => s.withIndex0 (min k 8)) (readByte_4016_shifting hstrobe)
    rwa [hstart] at hmany
  · have hstart : s.withIndex1 (min 0 8) = s := congrArg s.withIndex1 hindex.symm
    have hmany := readMany_of_sequence n (st := fun k => s.withIndex1 (min k 8)) (readByte_4017_shifting hstrobe)
    rwa [hstart] at hmany
  · exact readMany_of_unchanged n (readByte_4016_strobed hstrobe)
  · exact readMany_of_unchanged n (readByte_4017_strobed hstrobe)

end Sys2Proof.Machine
end

section
/-! The CPU's turn when an interrupt is ready: the entries as whole next states, and the edge on the NMI input
(60_exceptions.md R710, R712 to R714, R719 to R721). -/

namespace Sys2Proof.Machine

/-! ## The entries as whole next states -/

/-- The state after `service_irq()`, from the two bytes of the IRQ vector (60_exceptions.md R712, R714). -/
theorem serviceIrq_eq (s : State) : ∃ lo hi, peek s 0xFFFE = some lo ∧ peek s 0xFFFF = some hi ∧
    serviceIrq s = { s with
      ram := pushedEntry s.ram s.cpu.sp s.cpu.pc (statusByte s.cpu.p false)
      cpu := { s.cpu with
        sp := s.cpu.sp - 3
        pc := BitVec.ofNat 16 (lo.toNat + 256 * hi.toNat)
        p := { s.cpu.p with i := true }
        cycles := s.cpu.cycles + s.params.intCycles } } := by
  obtain ⟨lo, hi, hlo, hhi, hvector⟩ := vectorAt_bytes s (a := irqVector) (by decide) (by decide)
  refine ⟨lo, hi, hlo, hhi, ?_⟩
  rw [serviceIrq, interruptEntry_eq _ _ _ _ (by decide) (by decide), hvector, Bool.or_true, State.addCycles]

/-- The state after `service_nmi()`, from the two bytes of the NMI vector (60_exceptions.md R713, R714). -/
theorem serviceNmi_eq (s : State) : ∃ lo hi, peek s 0xFFFA = some lo ∧ peek s 0xFFFB = some hi ∧
    serviceNmi s = { s with
      ram := pushedEntry s.ram s.cpu.sp s.cpu.pc (statusByte s.cpu.p false)
      cpu := { s.cpu with
        sp := s.cpu.sp - 3
        pc := BitVec.ofNat 16 (lo.toNat + 256 * hi.toNat)
        nmiPending := false
        cycles := s.cpu.cycles + s.params.intCycles } } := by
  obtain ⟨lo, hi, hlo, hhi, hvector⟩ := vectorAt_bytes s (a := nmiVector) (by decide) (by decide)
  refine ⟨lo, hi, hlo, hhi, ?_⟩
  rw [serviceNmi, interruptEntry_eq _ _ _ _ (by decide) (by decide), hvector, Bool.or_false, State.addCycles]

/-! ## Which interrupt a step takes -/

/-- An NMI that can be taken is not deferred, so there is no deferral to end. -/
theorem afterDeferral_of_nmiPending {s : State} (hnmi : NmiPending s) : afterDeferral s = s := by
  obtain ⟨hpending, hdefer⟩ := hnmi
  rw [afterDeferral, if_pos hpending, ← hdefer]

section
variable {s : State}

theorem step_eq_execute_of_idle (hidle : Idle s) : step s = execute s := by
  obtain ⟨hfault, hsynced, hqueue⟩ := hidle
  simp [step, hfault, hsynced, boundary, hqueue]

theorem step_eq_serviceIrq (hidle : Idle s) (hirq : IrqPending s)
    (hfirst : s.params.intCheckOrder = .irqFirst ∨ ¬ NmiPending s) : step s = .next (serviceIrq (afterDeferral s)) := by
  have hready : irqReady s = true := (irqReady_iff s).2 hirq
  rw [step_eq_execute_of_idle hidle, execute, hready, endDeferral_eq_afterDeferral]
  rcases hfirst with horder | hnmi
  · simp [afterDeferral, horder]
  · have hnot : nmiReady s = false := Bool.eq_false_iff.2 (mt (nmiReady_iff s).1 hnmi)
    rw [hnot]
    split <;> rfl

theorem step_eq_serviceNmi (hidle : Idle s) (hnmi : NmiPending s)
    (hfirst : s.params.intCheckOrder = .nmiFirst ∨ ¬ IrqPending s) : step s = .next (serviceNmi s) := by
  have hready : nmiReady s = true := (nmiReady_iff s).2 hnmi
  rw [step_eq_execute_of_idle hidle, execute, hready, endDeferral_eq_afterDeferral, afterDeferral_of_nmiPending hnmi]
  rcases hfirst with horder | hirq
  · simp [horder]
  · have hnot : irqReady s = false := Bool.eq_false_iff.2 (mt (irqReady_iff s).1 hirq)
    rw [hnot]
    split <;> rfl

end

/-- Settles O34: the step is the entry after the end of a deferral, which changes nothing the entry reads. -/
theorem irqEntry : Obligations.IrqEntry := by
  intro s hidle hirq hfirst
  obtain ⟨lo, hi, hlo, hhi, hentry⟩ := serviceIrq_eq (afterDeferral s)
  refine ⟨lo, hi, hlo, hhi, ?_⟩
  rw [step_eq_serviceIrq hidle hirq hfirst, hentry]
  rfl

/-- Settles O35: the step is the entry, with no deferral to end. -/
theorem nmiEntry : Obligations.NmiEntry := by
  intro s hidle hnmi hfirst
  obtain ⟨lo, hi, hlo, hhi, hentry⟩ := serviceNmi_eq s
  refine ⟨lo, hi, hlo, hhi, ?_⟩
  rw [step_eq_serviceNmi hidle hnmi hfirst, hentry]

/-! ## The NMI input -/

/-- Settles O36, one case per policy; under `draw` the outcome is the draw of the current index. -/
theorem nmiEdgeSetsTheLatch : Obligations.NmiEdgeSetsTheLatch := by
  refine fun s => ⟨fun hpolicy => ?_, fun hpolicy => ?_, fun hpolicy => ?_, fun hpolicy => ⟨Config.nmiDraw s.draws, ?_⟩⟩ <;>
    simp only [triggerNmi, hpolicy]

end Sys2Proof.Machine
end
